-- ==== Sys2Proof/Word.lean ====
section
/-! DEFINITION. The two word widths of the core (00_scope.md R3): a byte and an address. -/

namespace Sys2Proof

/-- `XLEN_DATA`: the width of `A`, `X`, `Y`, `SP` and of every memory datum (R3, R10). -/
abbrev Byte := BitVec 8

/-- `XLEN_ADDR`: the width of `PC` and of every address (R3, R12). -/
abbrev Address := BitVec 16

end Sys2Proof
end

