-- ==== Sys2Proof/Machine/Bits.lean ====
section
/-! DEFINITION. Byte order, bit fields and extensions (00_scope.md R7, R8; 20_memory.md R32; 30_encoding.md R52). -/

namespace Sys2Proof

/-- `hi:lo`, the 16-bit value `hi * 256 + lo` (R7). -/
def word (hi lo : Byte) : Address := hi ++ lo

/-- The low byte `a[7:0]` of an address (R7). -/
def lowByte (a : Address) : Byte := a.extractLsb' 0 8

/-- The high byte `a[15:8]` of an address, its page number (R7, R9). -/
def highByte (a : Address) : Byte := a.extractLsb' 8 8

/-- `zext_16`: the byte as a 16-bit value with high byte 0 (R8). -/
def zext16 (b : Byte) : Address := b.setWidth 16

/-- `sext_16`: the byte as a 16-bit two's-complement value (R8). -/
def sext16 (b : Byte) : Address := b.signExtend 16

/-- `v[i]`, bit `i` of a byte (R7). -/
def bit (v : Byte) (i : Nat) : Bool := v.getLsbD i

end Sys2Proof
end

