-- ==== Sys2Proof/Config.lean ====
section
/-! DEFINITION. The implementation parameters of 00_scope.md R3, and the free value that stands for what the
embedding system's memory answers where the spec leaves it open. -/

namespace Sys2Proof.Config

/-- The parameter `RESET_PC` as `State.reset` uses it. DESIGN CHOICE (log entry 4): R202 leaves the value to the
embedding system. `State.hostReset` takes any value. -/
def resetPc : Address := 0x8000

/-- `RESET_A`, `RESET_X`, `RESET_Y` (R3, R25). -/
def resetIndex : Byte := 0x00

/-- `RESET_SP` (R3, R25). -/
def resetSp : Byte := 0xFF

/-- The page number of the fixed stack page 0x0100 to 0x01FF (R3, R14). -/
def stackPage : Byte := 0x01

/-- The size of the address space in bytes (R3, R30). -/
def memorySize : Nat := 65536

/-- What a byte of storage that nothing has written reads as. DESIGN CHOICE (log entry 1): R25 and R201 leave the
contents of memory to the embedding system. -/
def unlistedByte : Byte := 0x00

/-- The byte that the embedding system answers to the `k`-th read, when that read is of an address it does not back
with storage: any byte (20_memory.md R38, 93 U3). It has no body, so nothing can be proved of its value
(log entry 3). -/
opaque externalByte : Nat → Byte

end Sys2Proof.Config
end

