-- ==== Sys2Proof/Machine/State.lean ====
section
/-! DEFINITION. The state of the core and of the memory it reaches, plain data throughout, the reasons a step can stop,
and the state after reset (10_state.md section 1, R25). -/

namespace Sys2Proof.Machine

/-- The seven live flags (R17). Bit 5 of the status byte is not stored: it is the constant 1 where the byte is
formed (R17, R18, 90 C4). -/
structure Flags where
  /-- Carry, status bit 0. -/
  c : Bool
  /-- Zero, status bit 1. -/
  z : Bool
  /-- InterruptDisable, status bit 2; storage only (R21). -/
  i : Bool
  /-- Decimal, status bit 3; storage only (R21, R117). -/
  d : Bool
  /-- Break, status bit 4; storage only (R21). -/
  b : Bool
  /-- Overflow, status bit 6. -/
  v : Bool
  /-- Negative, status bit 7. -/
  n : Bool
  deriving DecidableEq, Repr

/-- The four 8-bit registers by name (R8 `x[r]`, R10, R14). -/
inductive Reg where
  | a | x | y | sp
  deriving DecidableEq, Repr

/-- The storage behind the memory port: (address, byte) pairs with addresses strictly rising and no entry equal to
`Config.unlistedByte`, which every unlisted address reads as (`Memory.wf`). -/
abbrev Memory := List Host.Cell

/-- A range of addresses that the embedding system does not back with storage: device registers, mapper ports, holes
(R36, R38). -/
structure Window where
  base : Nat
  size : Nat
  deriving DecidableEq, Repr

/-- The two kinds of memory access (R30). -/
inductive AccessKind where
  | read | write
  deriving DecidableEq, Repr

/-- One access of one byte through the memory port (R30, R31): its kind, its address, and the byte read or written. -/
structure Access where
  kind : AccessKind
  addr : Address
  value : Byte
  deriving DecidableEq, Repr

/-- The machine: the core's registers, flags and fault latch (R10 to R22), the memory it reaches (R24, R30), and the
accesses of the step in hand. -/
structure State where
  /-- `A`, the accumulator (R10). -/
  a : Byte
  /-- `X`, an index register (R10). -/
  x : Byte
  /-- `Y`, an index register (R10). -/
  y : Byte
  /-- `SP`, which indexes the stack page (R14). -/
  sp : Byte
  /-- `PC` (R12, R13). -/
  pc : Address
  /-- The live flags (R17). -/
  flags : Flags
  /-- The fault latch, 1 after `InvalidOpcode` (R22). -/
  halted : Bool
  /-- The absent opcode byte that halted the core (R22). -/
  faultOpcode : Byte
  /-- The address that opcode was read from (R22). -/
  faultPc : Address
  /-- The storage behind `Mem` (R24, R30); log entry 1. -/
  mem : Memory
  /-- The addresses of `Mem` with no storage behind them (R36, R38); log entry 2. -/
  external : List Window
  /-- How many bytes have been read: the index of the next free value; the model's own, log entry 3. -/
  reads : Nat
  /-- The memory accesses of the current step, in order (R4, R44); the model's own, log entry 5. -/
  accesses : List Access
  deriving DecidableEq, Repr

/-- The reasons the machine stops with a fault. -/
inductive Fault where
  /-- Raised by `step` of a halted core, and by nothing else: "While `halted = 1`, a `Step` performs no memory
  access, changes no state and again reports failure" (R183). It carries the latch's record. Safe: the spec gives
  such a step no effect (log entry 7). -/
  | halted (opcode : Byte) (pc : Address)
  deriving DecidableEq, Repr

/-- The reasons the model has no meaning for an instruction. -/
inductive Refusal where
  /-- Raised by an arm of `exec` for an instruction that has no meaning yet; no arm of this model raises it. Safe. -/
  | notModelled (mnemonic : String)
  deriving DecidableEq, Repr

/-- The outcome of an instruction or of a step. -/
abbrev Result := Host.Outcome State Fault Refusal

/-- The state after `Reset(Config.resetPc)` of a core whose memory nothing has written (R25, R200, R201). The spec
gives every value but `PC` (log entry 4) and the memory fields (log entries 1, 2, 3, 5). -/
def State.reset : State where
  a := Config.resetIndex
  x := Config.resetIndex
  y := Config.resetIndex
  sp := Config.resetSp
  pc := Config.resetPc
  flags := { c := false, z := false, i := false, d := false, b := false, v := false, n := false }
  halted := false
  faultOpcode := 0x00
  faultPc := 0x0000
  mem := []
  external := []
  reads := 0
  accesses := []

end Sys2Proof.Machine
end

