-- ==== Sys2Proof/Machine/Flags.lean ====
section
/-! DEFINITION. The status byte and every flag computation: pack and unpack (R18, R19), Zero and Negative (R20), the
adder (R110), the compare (R113), the shifts and rotates (R123 to R126) and the bit test (R136). -/

namespace Sys2Proof.Machine

/-- `pack()`: the status byte `N:V:1:B:D:I:Z:C` (R18). -/
def Flags.pack (f : Flags) : Byte :=
  BitVec.ofNat 8 (f.n.toNat * 128 + f.v.toNat * 64 + 32 + f.b.toNat * 16 + f.d.toNat * 8 + f.i.toNat * 4 +
    f.z.toNat * 2 + f.c.toNat)

/-- `unpack(b)`: the seven live flags of a status byte; bit 5 is ignored (R19). -/
def Flags.unpack (b : Byte) : Flags where
  c := bit b 0
  z := bit b 1
  i := bit b 2
  d := bit b 3
  b := bit b 4
  v := bit b 6
  n := bit b 7

/-- `setZN(v)`: Zero is `v == 0`, Negative is bit 7 of `v` (R20). -/
def Flags.setZN (f : Flags) (v : Byte) : Flags := { f with z := v == 0x00, n := bit v 7 }

/-- The result of the adder. -/
structure AddResult where
  r : Byte
  carry : Bool
  overflow : Bool
  deriving DecidableEq, Repr

/-- `adc8(a, m, c)`: the 9-bit sum, its low 8 bits, its carry, and the signed overflow (R110). `D` is no argument
(R117). -/
def adc8 (a m : Byte) (c : Bool) : AddResult :=
  let sum := a.toNat + m.toNat + c.toNat
  let r : Byte := BitVec.ofNat 8 sum
  { r := r
    carry := decide (sum > 255)
    overflow := (bit a 7 == bit m 7) && (bit r 7 != bit a 7) }

/-- The flags of ADC and SBC: `C`, `V`, `Z`, `N` from the adder's result (R111, R112). -/
def Flags.setAdd (f : Flags) (s : AddResult) : Flags :=
  { f with c := s.carry, v := s.overflow }.setZN s.r

/-- `cmp8(reg, m)`: Carry is `reg >= m` unsigned, Zero is equality, Negative is bit 7 of the difference (R113). -/
def Flags.setCmp (f : Flags) (reg m : Byte) : Flags :=
  { f with c := decide (m.toNat ≤ reg.toNat), z := reg == m, n := bit (reg - m) 7 }

/-- The flags of BIT: Zero from `A & m`, Negative and Overflow from bits 7 and 6 of `m` (R136). -/
def Flags.setBitTest (f : Flags) (a m : Byte) : Flags :=
  { f with z := (a &&& m) == 0x00, n := bit m 7, v := bit m 6 }

/-- The result of a shift or rotate by one bit: the byte and the bit shifted out. -/
structure Shifted where
  r : Byte
  carry : Bool
  deriving DecidableEq, Repr

/-- ASL: left by one, bit 0 is 0, Carry is bit 7 (R123). -/
def asl8 (v : Byte) : Shifted := { r := v <<< 1, carry := bit v 7 }

/-- LSR: right by one, bit 7 is 0, Carry is bit 0 (R124). -/
def lsr8 (v : Byte) : Shifted := { r := v >>> 1, carry := bit v 0 }

/-- ROL: left by one, bit 0 is the incoming Carry, Carry is bit 7 (R125). -/
def rol8 (v : Byte) (cin : Bool) : Shifted :=
  { r := (v <<< 1) ||| (if cin then 0x01 else 0x00), carry := bit v 7 }

/-- ROR: right by one, bit 7 is the incoming Carry, Carry is bit 0 (R126). -/
def ror8 (v : Byte) (cin : Bool) : Shifted :=
  { r := (v >>> 1) ||| (if cin then 0x80 else 0x00), carry := bit v 0 }

/-- The flags of a shift or rotate: `C` the bit shifted out, `Z` and `N` from the result (R127). -/
def Flags.setShift (f : Flags) (s : Shifted) : Flags := { f with c := s.carry }.setZN s.r

end Sys2Proof.Machine
end

