-- ==== Sys2Proof/Machine/Ops.lean ====
section
/-! DEFINITION. The named operations over registers and memory: the registers by name, the storage, the memory port,
the stack, and taking the core's one exception. There is no return from an exception (R183): `State.hostReset` in
HostPort.lean is what clears the halt. -/

namespace Sys2Proof.Machine

/-! ### The storage -/

/-- The byte stored at an address; an unlisted address reads as `Config.unlistedByte` (log entry 1). -/
def Memory.get : Memory → Nat → Byte
  | [], _ => Config.unlistedByte
  | (k, w) :: rest, a => if k = a then w else Memory.get rest a

/-- Store a byte at an address, keeping the canonical form: storing what an unlisted address reads as removes the
entry. -/
def Memory.set : Memory → Nat → Byte → Memory
  | [], a, v => if v = Config.unlistedByte then [] else [(a, v)]
  | (k, w) :: rest, a, v =>
    if a < k then
      if v = Config.unlistedByte then (k, w) :: rest else (a, v) :: (k, w) :: rest
    else if a = k then
      if v = Config.unlistedByte then rest else (a, v) :: rest
    else (k, w) :: Memory.set rest a v

/-- The canonical form from address `lo` on: addresses strictly rise from `lo`, lie in the address space (R30), and no
entry is the unlisted byte. -/
def Memory.wfFrom : Nat → Memory → Bool
  | _, [] => true
  | lo, (k, w) :: rest =>
    decide (lo ≤ k) && decide (k < Config.memorySize) && decide (w ≠ Config.unlistedByte) && Memory.wfFrom (k + 1) rest

/-- The canonical form of memory. -/
def Memory.wf (m : Memory) : Bool := Memory.wfFrom 0 m

/-- The window holds the address. -/
def Window.covers (w : Window) (a : Address) : Bool :=
  decide (w.base ≤ a.toNat) && decide (a.toNat < w.base + w.size)

/-! ### Registers and flags -/

/-- `x[r]` (R8). -/
def State.reg (s : State) : Reg → Byte
  | .a => s.a
  | .x => s.x
  | .y => s.y
  | .sp => s.sp

/-- `x[r] <- v` (R8). -/
def State.setReg (s : State) (r : Reg) (v : Byte) : State :=
  match r with
  | .a => { s with a := v }
  | .x => { s with x := v }
  | .y => { s with y := v }
  | .sp => { s with sp := v }

/-- `PC <- t` (R8). -/
def State.setPc (s : State) (t : Address) : State := { s with pc := t }

/-- Replace the live flags. -/
def State.setFlags (s : State) (f : Flags) : State := { s with flags := f }

/-- `setZN(v)` on the state (R20). -/
def State.setZN (s : State) (v : Byte) : State := s.setFlags (s.flags.setZN v)

/-! ### The memory port -/

/-- The embedding system backs the address with no storage (R36, R38). -/
def State.isExternal (s : State) (a : Address) : Bool := s.external.any (·.covers a)

/-- The byte in storage at an address, without an access. -/
def State.byteAt (s : State) (a : Address) : Byte := s.mem.get a.toNat

/-- What `Mem` answers at address `a` when `k` more reads have been made from here: the stored byte, or any byte
where there is no storage (R38; log entries 2 and 3). -/
def State.answer (s : State) (k : Nat) (a : Address) : Byte :=
  if s.isExternal a then Config.externalByte (s.reads + k) else s.byteAt a

/-- `MemRead(addr, 1)`: one byte read through the port (R8, R30). It changes nothing but the record of accesses and
the index of the next free value. -/
def State.busRead (s : State) (a : Address) : Byte × State :=
  let v := s.answer 0 a
  (v, { s with reads := s.reads + 1, accesses := s.accesses ++ [{ kind := .read, addr := a, value := v }] })

/-- `MemWrite(addr, 1, v)`: one byte written through the port (R8, R30). It always completes (R38); where there is
no storage, nothing is stored (log entry 2). -/
def State.busWrite (s : State) (a : Address) (v : Byte) : State :=
  { s with
    mem := if s.isExternal a then s.mem else s.mem.set a.toNat v
    accesses := s.accesses ++ [{ kind := .write, addr := a, value := v }] }

/-- `read16(lo_addr, hi_addr)`: low byte first, then high byte (R34). -/
def State.read16 (s : State) (lo hi : Address) : Address × State :=
  let l := s.busRead lo
  let h := l.2.busRead hi
  (word h.1 l.1, h.2)

/-! ### The stack -/

/-- The stack address of a stack pointer value: `0x0100 + zext_16(sp)` (R14). -/
def stackAddr (sp : Byte) : Address := word Config.stackPage sp

/-- `push(v)`: write at the stack address, then decrement `SP`, which wraps (R15). -/
def State.push (s : State) (v : Byte) : State :=
  (s.busWrite (stackAddr s.sp) v).setReg .sp (s.sp - 1)

/-- `pull()`: increment `SP`, which wraps, then read at the stack address (R16). -/
def State.pull (s : State) : Byte × State :=
  (s.setReg .sp (s.sp + 1)).busRead (stackAddr (s.sp + 1))

/-! ### The one exception -/

/-- Taking `InvalidOpcode(op, pc0)`: exactly three fields change, and control goes nowhere (R180, R181). -/
def State.takeInvalidOpcode (s : State) (op : Byte) (pc0 : Address) : State :=
  { s with halted := true, faultOpcode := op, faultPc := pc0 }

/-- A step begins with no access made (R37, R44; log entry 5). -/
def State.beginStep (s : State) : State := { s with accesses := [] }

end Sys2Proof.Machine
end

