-- ==== Sys2Proof/Syntax.lean ====
section
/-! DEFINITION. The instructions: one constructor of `Instr` for each of the 149 rows of spec/opcode_table.json
(30_encoding.md R53), the thirteen addressing modes (R51) and the 54 mnemonics. Operands are already assembled
(R52): a byte, or the 16-bit value `hi8:lo8`. -/

namespace Sys2Proof

/-- The thirteen addressing modes, by the spec's abbreviations (R9, R51). -/
inductive Mode where
  | imp | acc | imm | zp | zpx | zpy | abs | abx | aby | ind | izx | izy | rel
  deriving DecidableEq, Repr

/-- The 54 mnemonics of the Instruction Table (R53). -/
inductive Mnemonic where
  | lda | ldx | ldy | sta | stx | sty | tax | tay | txa
  | tya | tsx | txs | adc | sbc | cmp | cpx | cpy | and
  | ora | eor | asl | lsr | rol | ror | inc | dec | inx
  | iny | dex | dey | bit | bcc | bcs | beq | bne | bmi
  | bpl | bvc | bvs | jmp | jsr | rts | pha | pla | php
  | plp | nop | clc | sec | cli | sei | clv | cld | sed
  deriving DecidableEq, Repr

/-- An operand in memory, by its addressing mode, with the operand field the mode carries (R52, R73 to R78, R80,
R81). -/
inductive MemOperand where
  | zp (b : Byte)
  | zpx (b : Byte)
  | zpy (b : Byte)
  | abs (a : Address)
  | abx (a : Address)
  | aby (a : Address)
  | izx (b : Byte)
  | izy (b : Byte)
  deriving DecidableEq, Repr

/-- What `LoadOperand()` reads: the immediate byte or a byte in memory (R83). -/
inductive Source where
  | immediate (v : Byte)
  | memory (o : MemOperand)
  deriving DecidableEq, Repr

/-- The operand and destination of a shift or rotate: `A` or a byte in memory (R127). -/
inductive Target where
  | accumulator
  | memory (o : MemOperand)
  deriving DecidableEq, Repr

/-- The operand of any instruction, one shape for each group of modes (R70 to R82). -/
inductive Operand where
  | implied
  | accumulator
  | immediate (v : Byte)
  | memory (o : MemOperand)
  | indirect (p : Address)
  | relative (d : Byte)
  deriving DecidableEq, Repr

/-- The addressing mode of a memory operand. -/
def MemOperand.mode : MemOperand → Mode
  | .zp _ => .zp
  | .zpx _ => .zpx
  | .zpy _ => .zpy
  | .abs _ => .abs
  | .abx _ => .abx
  | .aby _ => .aby
  | .izx _ => .izx
  | .izy _ => .izy

/-- The addressing mode of an operand. -/
def Operand.mode : Operand → Mode
  | .implied => .imp
  | .accumulator => .acc
  | .immediate _ => .imm
  | .memory o => o.mode
  | .indirect _ => .ind
  | .relative _ => .rel

/-- The operand as what `LoadOperand()` reads, if it is one (R83). -/
def Operand.source? : Operand → Option Source
  | .immediate v => some (.immediate v)
  | .memory o => some (.memory o)
  | _ => none

/-- The operand as the target of a shift or rotate, if it is one (R127). -/
def Operand.target? : Operand → Option Target
  | .accumulator => some .accumulator
  | .memory o => some (.memory o)
  | _ => none

/-- The operand as a memory operand, if it is one. -/
def Operand.memory? : Operand → Option MemOperand
  | .memory o => some o
  | _ => none

/-- How many operand bytes follow the opcode (R51, R84). -/
def Mode.operandBytes : Mode → Nat
  | .imp | .acc => 0
  | .imm | .zp | .zpx | .zpy | .izx | .izy | .rel => 1
  | .abs | .abx | .aby | .ind => 2

/-- The length of an instruction of this mode in bytes (R50, R51). -/
def Mode.length (m : Mode) : Nat := 1 + m.operandBytes

/-- The instructions, one constructor for each row of the opcode table: the mnemonic, then the mode where the
mnemonic has more than one. Operand fields: `v` an immediate byte, `b` a zero-page byte, `a` an absolute address,
`p` a pointer address, `d` a signed displacement byte (R51, R52). -/
inductive Instr where
  | ldaImm (v : Byte)
  | ldaZp (b : Byte)
  | ldaZpx (b : Byte)
  | ldaAbs (a : Address)
  | ldaAbx (a : Address)
  | ldaAby (a : Address)
  | ldaIzx (b : Byte)
  | ldaIzy (b : Byte)
  | ldxImm (v : Byte)
  | ldxZp (b : Byte)
  | ldxZpy (b : Byte)
  | ldxAbs (a : Address)
  | ldxAby (a : Address)
  | ldyImm (v : Byte)
  | ldyZp (b : Byte)
  | ldyZpx (b : Byte)
  | ldyAbs (a : Address)
  | ldyAbx (a : Address)
  | staZp (b : Byte)
  | staZpx (b : Byte)
  | staAbs (a : Address)
  | staAbx (a : Address)
  | staAby (a : Address)
  | staIzx (b : Byte)
  | staIzy (b : Byte)
  | stxZp (b : Byte)
  | stxZpy (b : Byte)
  | stxAbs (a : Address)
  | styZp (b : Byte)
  | styZpx (b : Byte)
  | styAbs (a : Address)
  | tax
  | tay
  | txa
  | tya
  | tsx
  | txs
  | adcImm (v : Byte)
  | adcZp (b : Byte)
  | adcZpx (b : Byte)
  | adcAbs (a : Address)
  | adcAbx (a : Address)
  | adcAby (a : Address)
  | adcIzx (b : Byte)
  | adcIzy (b : Byte)
  | sbcImm (v : Byte)
  | sbcZp (b : Byte)
  | sbcZpx (b : Byte)
  | sbcAbs (a : Address)
  | sbcAbx (a : Address)
  | sbcAby (a : Address)
  | sbcIzx (b : Byte)
  | sbcIzy (b : Byte)
  | cmpImm (v : Byte)
  | cmpZp (b : Byte)
  | cmpZpx (b : Byte)
  | cmpAbs (a : Address)
  | cmpAbx (a : Address)
  | cmpAby (a : Address)
  | cmpIzx (b : Byte)
  | cmpIzy (b : Byte)
  | cpxImm (v : Byte)
  | cpxZp (b : Byte)
  | cpxAbs (a : Address)
  | cpyImm (v : Byte)
  | cpyZp (b : Byte)
  | cpyAbs (a : Address)
  | andImm (v : Byte)
  | andZp (b : Byte)
  | andZpx (b : Byte)
  | andAbs (a : Address)
  | andAbx (a : Address)
  | andAby (a : Address)
  | andIzx (b : Byte)
  | andIzy (b : Byte)
  | oraImm (v : Byte)
  | oraZp (b : Byte)
  | oraZpx (b : Byte)
  | oraAbs (a : Address)
  | oraAbx (a : Address)
  | oraAby (a : Address)
  | oraIzx (b : Byte)
  | oraIzy (b : Byte)
  | eorImm (v : Byte)
  | eorZp (b : Byte)
  | eorZpx (b : Byte)
  | eorAbs (a : Address)
  | eorAbx (a : Address)
  | eorAby (a : Address)
  | eorIzx (b : Byte)
  | eorIzy (b : Byte)
  | aslZp (b : Byte)
  | aslZpx (b : Byte)
  | aslAbs (a : Address)
  | aslAbx (a : Address)
  | aslAcc
  | lsrZp (b : Byte)
  | lsrZpx (b : Byte)
  | lsrAbs (a : Address)
  | lsrAbx (a : Address)
  | lsrAcc
  | rolZp (b : Byte)
  | rolZpx (b : Byte)
  | rolAbs (a : Address)
  | rolAbx (a : Address)
  | rolAcc
  | rorZp (b : Byte)
  | rorZpx (b : Byte)
  | rorAbs (a : Address)
  | rorAbx (a : Address)
  | rorAcc
  | incZp (b : Byte)
  | incZpx (b : Byte)
  | incAbs (a : Address)
  | incAbx (a : Address)
  | decZp (b : Byte)
  | decZpx (b : Byte)
  | decAbs (a : Address)
  | decAbx (a : Address)
  | inx
  | iny
  | dex
  | dey
  | bitZp (b : Byte)
  | bitAbs (a : Address)
  | bcc (d : Byte)
  | bcs (d : Byte)
  | beq (d : Byte)
  | bne (d : Byte)
  | bmi (d : Byte)
  | bpl (d : Byte)
  | bvc (d : Byte)
  | bvs (d : Byte)
  | jmpAbs (a : Address)
  | jmpInd (p : Address)
  | jsr (a : Address)
  | rts
  | pha
  | pla
  | php
  | plp
  | nop
  | clc
  | sec
  | cli
  | sei
  | clv
  | cld
  | sed
  deriving DecidableEq, Repr

/-- The mnemonic of an instruction (R53). -/
def Instr.mnemonic : Instr → Mnemonic
  | .ldaImm _ | .ldaZp _ | .ldaZpx _ | .ldaAbs _ | .ldaAbx _ | .ldaAby _ | .ldaIzx _ | .ldaIzy _ => .lda
  | .ldxImm _ | .ldxZp _ | .ldxZpy _ | .ldxAbs _ | .ldxAby _ => .ldx
  | .ldyImm _ | .ldyZp _ | .ldyZpx _ | .ldyAbs _ | .ldyAbx _ => .ldy
  | .staZp _ | .staZpx _ | .staAbs _ | .staAbx _ | .staAby _ | .staIzx _ | .staIzy _ => .sta
  | .stxZp _ | .stxZpy _ | .stxAbs _ => .stx
  | .styZp _ | .styZpx _ | .styAbs _ => .sty
  | .tax => .tax
  | .tay => .tay
  | .txa => .txa
  | .tya => .tya
  | .tsx => .tsx
  | .txs => .txs
  | .adcImm _ | .adcZp _ | .adcZpx _ | .adcAbs _ | .adcAbx _ | .adcAby _ | .adcIzx _ | .adcIzy _ => .adc
  | .sbcImm _ | .sbcZp _ | .sbcZpx _ | .sbcAbs _ | .sbcAbx _ | .sbcAby _ | .sbcIzx _ | .sbcIzy _ => .sbc
  | .cmpImm _ | .cmpZp _ | .cmpZpx _ | .cmpAbs _ | .cmpAbx _ | .cmpAby _ | .cmpIzx _ | .cmpIzy _ => .cmp
  | .cpxImm _ | .cpxZp _ | .cpxAbs _ => .cpx
  | .cpyImm _ | .cpyZp _ | .cpyAbs _ => .cpy
  | .andImm _ | .andZp _ | .andZpx _ | .andAbs _ | .andAbx _ | .andAby _ | .andIzx _ | .andIzy _ => .and
  | .oraImm _ | .oraZp _ | .oraZpx _ | .oraAbs _ | .oraAbx _ | .oraAby _ | .oraIzx _ | .oraIzy _ => .ora
  | .eorImm _ | .eorZp _ | .eorZpx _ | .eorAbs _ | .eorAbx _ | .eorAby _ | .eorIzx _ | .eorIzy _ => .eor
  | .aslZp _ | .aslZpx _ | .aslAbs _ | .aslAbx _ | .aslAcc => .asl
  | .lsrZp _ | .lsrZpx _ | .lsrAbs _ | .lsrAbx _ | .lsrAcc => .lsr
  | .rolZp _ | .rolZpx _ | .rolAbs _ | .rolAbx _ | .rolAcc => .rol
  | .rorZp _ | .rorZpx _ | .rorAbs _ | .rorAbx _ | .rorAcc => .ror
  | .incZp _ | .incZpx _ | .incAbs _ | .incAbx _ => .inc
  | .decZp _ | .decZpx _ | .decAbs _ | .decAbx _ => .dec
  | .inx => .inx
  | .iny => .iny
  | .dex => .dex
  | .dey => .dey
  | .bitZp _ | .bitAbs _ => .bit
  | .bcc _ => .bcc
  | .bcs _ => .bcs
  | .beq _ => .beq
  | .bne _ => .bne
  | .bmi _ => .bmi
  | .bpl _ => .bpl
  | .bvc _ => .bvc
  | .bvs _ => .bvs
  | .jmpAbs _ | .jmpInd _ => .jmp
  | .jsr _ => .jsr
  | .rts => .rts
  | .pha => .pha
  | .pla => .pla
  | .php => .php
  | .plp => .plp
  | .nop => .nop
  | .clc => .clc
  | .sec => .sec
  | .cli => .cli
  | .sei => .sei
  | .clv => .clv
  | .cld => .cld
  | .sed => .sed

/-- The operand of an instruction: its mode and operand field (R51 to R53). -/
def Instr.operand : Instr → Operand
  | .ldaImm v | .ldxImm v | .ldyImm v | .adcImm v | .sbcImm v | .cmpImm v | .cpxImm v | .cpyImm v
  | .andImm v | .oraImm v | .eorImm v => .immediate v
  | .ldaZp b | .ldxZp b | .ldyZp b | .staZp b | .stxZp b | .styZp b | .adcZp b | .sbcZp b
  | .cmpZp b | .cpxZp b | .cpyZp b | .andZp b | .oraZp b | .eorZp b | .aslZp b | .lsrZp b
  | .rolZp b | .rorZp b | .incZp b | .decZp b | .bitZp b => .memory (.zp b)
  | .ldaZpx b | .ldyZpx b | .staZpx b | .styZpx b | .adcZpx b | .sbcZpx b | .cmpZpx b | .andZpx b
  | .oraZpx b | .eorZpx b | .aslZpx b | .lsrZpx b | .rolZpx b | .rorZpx b | .incZpx b | .decZpx b => .memory (.zpx b)
  | .ldxZpy b | .stxZpy b => .memory (.zpy b)
  | .ldaAbs a | .ldxAbs a | .ldyAbs a | .staAbs a | .stxAbs a | .styAbs a | .adcAbs a | .sbcAbs a
  | .cmpAbs a | .cpxAbs a | .cpyAbs a | .andAbs a | .oraAbs a | .eorAbs a | .aslAbs a | .lsrAbs a
  | .rolAbs a | .rorAbs a | .incAbs a | .decAbs a | .bitAbs a | .jmpAbs a | .jsr a => .memory (.abs a)
  | .ldaAbx a | .ldyAbx a | .staAbx a | .adcAbx a | .sbcAbx a | .cmpAbx a | .andAbx a | .oraAbx a
  | .eorAbx a | .aslAbx a | .lsrAbx a | .rolAbx a | .rorAbx a | .incAbx a | .decAbx a => .memory (.abx a)
  | .ldaAby a | .ldxAby a | .staAby a | .adcAby a | .sbcAby a | .cmpAby a | .andAby a | .oraAby a
  | .eorAby a => .memory (.aby a)
  | .ldaIzx b | .staIzx b | .adcIzx b | .sbcIzx b | .cmpIzx b | .andIzx b | .oraIzx b | .eorIzx b => .memory (.izx b)
  | .ldaIzy b | .staIzy b | .adcIzy b | .sbcIzy b | .cmpIzy b | .andIzy b | .oraIzy b | .eorIzy b => .memory (.izy b)
  | .aslAcc | .lsrAcc | .rolAcc | .rorAcc => .accumulator
  | .tax | .tay | .txa | .tya | .tsx | .txs | .inx | .iny
  | .dex | .dey | .rts | .pha | .pla | .php | .plp | .nop
  | .clc | .sec | .cli | .sei | .clv | .cld | .sed => .implied
  | .bcc d | .bcs d | .beq d | .bne d | .bmi d | .bpl d | .bvc d | .bvs d => .relative d
  | .jmpInd p => .indirect p

/-- The addressing mode of an instruction (R51). -/
def Instr.mode (i : Instr) : Mode := i.operand.mode

/-- The length of an instruction in bytes (R50, R51). -/
def Instr.length (i : Instr) : Nat := i.mode.length

end Sys2Proof
end

