-- ==== Sys2Proof/Machine/Operands.lean ====
section
/-! DEFINITION. The addressing-mode resolver (40_addressing_modes.md). The operand field of an instruction has been read
by the fetch (Fetch.lean), so what is left of `Resolve` is the address arithmetic and the pointer reads. A resolution
gives the effective address and the state after the pointer reads. -/

namespace Sys2Proof.Machine

/-- The pointer in the zero page at `p`, its high byte at `p + 1` within the zero page (R80, R81, 92 D7). -/
def State.zpPointer (s : State) (p : Byte) : Address × State := s.read16 (zext16 p) (zext16 (p + 1))

/-- `Resolve(mode)` of a memory operand (R73 to R78, R80, R81). -/
def State.resolve (s : State) : MemOperand → Address × State
  | .zp b => (zext16 b, s)
  | .zpx b => (zext16 (b + s.x), s)
  | .zpy b => (zext16 (b + s.y), s)
  | .abs a => (a, s)
  | .abx a => (a + zext16 s.x, s)
  | .aby a => (a + zext16 s.y, s)
  | .izx b => s.zpPointer (b + s.x)
  | .izy b =>
    let base := s.zpPointer b
    (base.1 + zext16 s.y, base.2)

/-- The address of the high byte of a word read through `ptr`: in the same page as `ptr` (R79). -/
def samePageNext (ptr : Address) : Address := (ptr &&& 0xFF00) ||| ((ptr + 1) &&& 0x00FF)

/-- `Resolve(IND)`: the word at the pointer address, with the same-page quirk (R79, 92 D8). -/
def State.resolveIndirect (s : State) (ptr : Address) : Address × State := s.read16 ptr (samePageNext ptr)

/-- `Resolve(REL)`: the target of a branch whose next instruction is at `pc` (R82). -/
def relTarget (pc : Address) (d : Byte) : Address := pc + sext16 d

/-- `LoadOperand()`: the immediate byte, or the byte at the effective address, read once (R72, R83). -/
def State.loadOperand (s : State) : Source → Byte × State
  | .immediate v => (v, s)
  | .memory o =>
    let ea := s.resolve o
    ea.2.busRead ea.1

end Sys2Proof.Machine
end

