-- ==== Sys2Proof/Machine/Arithmetic.lean ====
section
/-! DEFINITION. ADC, SBC and the compares (42_arithmetic_compare.md). -/

namespace Sys2Proof.Machine

/-- ADC: `A`, the operand and `C` through the adder (R111). -/
def addCarry (src : Source) (s : State) : Result :=
  let m := s.loadOperand src
  let sum := adc8 m.2.a m.1 m.2.flags.c
  .next ((m.2.setReg .a sum.r).setFlags (m.2.flags.setAdd sum))

/-- SBC: as ADC with the operand's one's complement (R112). -/
def subCarry (src : Source) (s : State) : Result :=
  let m := s.loadOperand src
  let sum := adc8 m.2.a (m.1 ^^^ 0xFF) m.2.flags.c
  .next ((m.2.setReg .a sum.r).setFlags (m.2.flags.setAdd sum))

/-- A compare of a register with the operand: only `C`, `Z`, `N` change (R113 to R116). -/
def compare (r : Reg) (src : Source) (s : State) : Result :=
  let m := s.loadOperand src
  .next (m.2.setFlags (m.2.flags.setCmp (m.2.reg r) m.1))

/-- ADC IMM (R111, R72). -/
def execAdcImm (v : Byte) (s : State) : Result := addCarry (.immediate v) s

/-- ADC ZP (R111, R73). -/
def execAdcZp (b : Byte) (s : State) : Result := addCarry (.memory (.zp b)) s

/-- ADC ZPX (R111, R74). -/
def execAdcZpx (b : Byte) (s : State) : Result := addCarry (.memory (.zpx b)) s

/-- ADC ABS (R111, R76). -/
def execAdcAbs (a : Address) (s : State) : Result := addCarry (.memory (.abs a)) s

/-- ADC ABX (R111, R77). -/
def execAdcAbx (a : Address) (s : State) : Result := addCarry (.memory (.abx a)) s

/-- ADC ABY (R111, R78). -/
def execAdcAby (a : Address) (s : State) : Result := addCarry (.memory (.aby a)) s

/-- ADC IZX (R111, R80). -/
def execAdcIzx (b : Byte) (s : State) : Result := addCarry (.memory (.izx b)) s

/-- ADC IZY (R111, R81). -/
def execAdcIzy (b : Byte) (s : State) : Result := addCarry (.memory (.izy b)) s

/-- SBC IMM (R112, R72). -/
def execSbcImm (v : Byte) (s : State) : Result := subCarry (.immediate v) s

/-- SBC ZP (R112, R73). -/
def execSbcZp (b : Byte) (s : State) : Result := subCarry (.memory (.zp b)) s

/-- SBC ZPX (R112, R74). -/
def execSbcZpx (b : Byte) (s : State) : Result := subCarry (.memory (.zpx b)) s

/-- SBC ABS (R112, R76). -/
def execSbcAbs (a : Address) (s : State) : Result := subCarry (.memory (.abs a)) s

/-- SBC ABX (R112, R77). -/
def execSbcAbx (a : Address) (s : State) : Result := subCarry (.memory (.abx a)) s

/-- SBC ABY (R112, R78). -/
def execSbcAby (a : Address) (s : State) : Result := subCarry (.memory (.aby a)) s

/-- SBC IZX (R112, R80). -/
def execSbcIzx (b : Byte) (s : State) : Result := subCarry (.memory (.izx b)) s

/-- SBC IZY (R112, R81). -/
def execSbcIzy (b : Byte) (s : State) : Result := subCarry (.memory (.izy b)) s

/-- CMP IMM (R114, R72). -/
def execCmpImm (v : Byte) (s : State) : Result := compare .a (.immediate v) s

/-- CMP ZP (R114, R73). -/
def execCmpZp (b : Byte) (s : State) : Result := compare .a (.memory (.zp b)) s

/-- CMP ZPX (R114, R74). -/
def execCmpZpx (b : Byte) (s : State) : Result := compare .a (.memory (.zpx b)) s

/-- CMP ABS (R114, R76). -/
def execCmpAbs (a : Address) (s : State) : Result := compare .a (.memory (.abs a)) s

/-- CMP ABX (R114, R77). -/
def execCmpAbx (a : Address) (s : State) : Result := compare .a (.memory (.abx a)) s

/-- CMP ABY (R114, R78). -/
def execCmpAby (a : Address) (s : State) : Result := compare .a (.memory (.aby a)) s

/-- CMP IZX (R114, R80). -/
def execCmpIzx (b : Byte) (s : State) : Result := compare .a (.memory (.izx b)) s

/-- CMP IZY (R114, R81). -/
def execCmpIzy (b : Byte) (s : State) : Result := compare .a (.memory (.izy b)) s

/-- CPX IMM (R115, R72). -/
def execCpxImm (v : Byte) (s : State) : Result := compare .x (.immediate v) s

/-- CPX ZP (R115, R73). -/
def execCpxZp (b : Byte) (s : State) : Result := compare .x (.memory (.zp b)) s

/-- CPX ABS (R115, R76). -/
def execCpxAbs (a : Address) (s : State) : Result := compare .x (.memory (.abs a)) s

/-- CPY IMM (R116, R72). -/
def execCpyImm (v : Byte) (s : State) : Result := compare .y (.immediate v) s

/-- CPY ZP (R116, R73). -/
def execCpyZp (b : Byte) (s : State) : Result := compare .y (.memory (.zp b)) s

/-- CPY ABS (R116, R76). -/
def execCpyAbs (a : Address) (s : State) : Result := compare .y (.memory (.abs a)) s

end Sys2Proof.Machine
end

