-- ==== Sys2Proof/Machine/Control.lean ====
section
/-! DEFINITION. Branches, JMP, JSR, RTS (45_control_flow.md). `PC` already holds the address after the instruction. -/

namespace Sys2Proof.Machine

/-- `Branch(cond)`: `PC` becomes the relative target if the condition holds, else stays (R140). -/
def branch (cond : Bool) (d : Byte) (s : State) : Result :=
  .next (if cond then s.setPc (relTarget s.pc d) else s)

/-- BCC REL (R141, R82). -/
def execBcc (d : Byte) (s : State) : Result := branch (!s.flags.c) d s

/-- BCS REL (R142, R82). -/
def execBcs (d : Byte) (s : State) : Result := branch s.flags.c d s

/-- BEQ REL (R143, R82). -/
def execBeq (d : Byte) (s : State) : Result := branch s.flags.z d s

/-- BNE REL (R144, R82). -/
def execBne (d : Byte) (s : State) : Result := branch (!s.flags.z) d s

/-- BMI REL (R145, R82). -/
def execBmi (d : Byte) (s : State) : Result := branch s.flags.n d s

/-- BPL REL (R146, R82). -/
def execBpl (d : Byte) (s : State) : Result := branch (!s.flags.n) d s

/-- BVC REL (R147, R82). -/
def execBvc (d : Byte) (s : State) : Result := branch (!s.flags.v) d s

/-- BVS REL (R148, R82). -/
def execBvs (d : Byte) (s : State) : Result := branch s.flags.v d s

/-- JMP ABS (R149, R76): `PC` becomes the effective address. -/
def execJmpAbs (a : Address) (s : State) : Result := .next (s.setPc a)

/-- JMP IND (R149, R79): `PC` becomes the effective address. -/
def execJmpInd (p : Address) (s : State) : Result :=
  let ea := s.resolveIndirect p
  .next (ea.2.setPc ea.1)

/-- JSR ABS (R150, R76): the return address minus one is pushed, high byte first. -/
def execJsr (a : Address) (s : State) : Result :=
  let ret := s.pc - 1
  .next (((s.push (highByte ret)).push (lowByte ret)).setPc a)

/-- RTS IMP (R151, R70): low byte, high byte, plus one. -/
def execRts (s : State) : Result :=
  let lo := s.pull
  let hi := lo.2.pull
  .next (hi.2.setPc (word hi.1 lo.1 + 1))

end Sys2Proof.Machine
end

