-- ==== Sys2Proof/Machine/FlagOps.lean ====
section
/-! DEFINITION. CLC, SEC, CLI, SEI, CLV, CLD, SED (47_flag_ops.md): each writes one flag and nothing else. -/

namespace Sys2Proof.Machine

/-- CLC IMP (R170, R70). -/
def execClc (s : State) : Result := .next (s.setFlags { s.flags with c := false })

/-- SEC IMP (R171, R70). -/
def execSec (s : State) : Result := .next (s.setFlags { s.flags with c := true })

/-- CLI IMP (R172, R70). -/
def execCli (s : State) : Result := .next (s.setFlags { s.flags with i := false })

/-- SEI IMP (R173, R70). -/
def execSei (s : State) : Result := .next (s.setFlags { s.flags with i := true })

/-- CLV IMP (R174, R70). -/
def execClv (s : State) : Result := .next (s.setFlags { s.flags with v := false })

/-- CLD IMP (R175, R70). -/
def execCld (s : State) : Result := .next (s.setFlags { s.flags with d := false })

/-- SED IMP (R176, R70). -/
def execSed (s : State) : Result := .next (s.setFlags { s.flags with d := true })

end Sys2Proof.Machine
end

