-- ==== Sys2Proof/Machine/IncDec.lean ====
section
/-! DEFINITION. INC, DEC, INX, INY, DEX, DEY and BIT (44_incdec_bit.md). -/

namespace Sys2Proof.Machine

/-- A read-modify-write of memory by `op`: one read, one write, Zero and Negative from the result (R130, R131). -/
def modify (op : Byte → Byte) (o : MemOperand) (s : State) : Result :=
  let ea := s.resolve o
  let v := ea.2.busRead ea.1
  .next ((v.2.busWrite ea.1 (op v.1)).setZN (op v.1))

/-- A register changed by `op`, Zero and Negative from the result (R132 to R135). -/
def modifyReg (op : Byte → Byte) (r : Reg) (s : State) : Result :=
  .next ((s.setReg r (op (s.reg r))).setZN (op (s.reg r)))

/-- BIT: only `Z`, `N`, `V` change (R136). -/
def bitTest (o : MemOperand) (s : State) : Result :=
  let m := s.loadOperand (.memory o)
  .next (m.2.setFlags (m.2.flags.setBitTest m.2.a m.1))

/-- INC ZP (R130, R73). -/
def execIncZp (b : Byte) (s : State) : Result := modify (· + 1) (.zp b) s

/-- INC ZPX (R130, R74). -/
def execIncZpx (b : Byte) (s : State) : Result := modify (· + 1) (.zpx b) s

/-- INC ABS (R130, R76). -/
def execIncAbs (a : Address) (s : State) : Result := modify (· + 1) (.abs a) s

/-- INC ABX (R130, R77). -/
def execIncAbx (a : Address) (s : State) : Result := modify (· + 1) (.abx a) s

/-- DEC ZP (R131, R73). -/
def execDecZp (b : Byte) (s : State) : Result := modify (· - 1) (.zp b) s

/-- DEC ZPX (R131, R74). -/
def execDecZpx (b : Byte) (s : State) : Result := modify (· - 1) (.zpx b) s

/-- DEC ABS (R131, R76). -/
def execDecAbs (a : Address) (s : State) : Result := modify (· - 1) (.abs a) s

/-- DEC ABX (R131, R77). -/
def execDecAbx (a : Address) (s : State) : Result := modify (· - 1) (.abx a) s

/-- INX IMP (R132, R70). -/
def execInx (s : State) : Result := modifyReg (· + 1) .x s

/-- INY IMP (R133, R70). -/
def execIny (s : State) : Result := modifyReg (· + 1) .y s

/-- DEX IMP (R134, R70). -/
def execDex (s : State) : Result := modifyReg (· - 1) .x s

/-- DEY IMP (R135, R70). -/
def execDey (s : State) : Result := modifyReg (· - 1) .y s

/-- BIT ZP (R136, R73). -/
def execBitZp (b : Byte) (s : State) : Result := bitTest (.zp b) s

/-- BIT ABS (R136, R76). -/
def execBitAbs (a : Address) (s : State) : Result := bitTest (.abs a) s

end Sys2Proof.Machine
end

