-- ==== Sys2Proof/Machine/LoadStore.lean ====
section
/-! DEFINITION. Loads, stores and register transfers (41_load_store_transfer.md). -/

namespace Sys2Proof.Machine

/-- A load: the operand goes to the register and sets Zero and Negative (R90 to R92). -/
def load (r : Reg) (src : Source) (s : State) : Result :=
  let m := s.loadOperand src
  .next ((m.2.setReg r m.1).setZN m.1)

/-- A store: the register goes to the effective address, which is not read; no flag changes (R93 to R95). -/
def store (r : Reg) (o : MemOperand) (s : State) : Result :=
  let ea := s.resolve o
  .next (ea.2.busWrite ea.1 (s.reg r))

/-- A transfer that sets Zero and Negative from the byte copied (R96 to R100). -/
def transfer (src dst : Reg) (s : State) : Result :=
  .next ((s.setReg dst (s.reg src)).setZN (s.reg src))

/-- LDA IMM (R90, R72). -/
def execLdaImm (v : Byte) (s : State) : Result := load .a (.immediate v) s

/-- LDA ZP (R90, R73). -/
def execLdaZp (b : Byte) (s : State) : Result := load .a (.memory (.zp b)) s

/-- LDA ZPX (R90, R74). -/
def execLdaZpx (b : Byte) (s : State) : Result := load .a (.memory (.zpx b)) s

/-- LDA ABS (R90, R76). -/
def execLdaAbs (a : Address) (s : State) : Result := load .a (.memory (.abs a)) s

/-- LDA ABX (R90, R77). -/
def execLdaAbx (a : Address) (s : State) : Result := load .a (.memory (.abx a)) s

/-- LDA ABY (R90, R78). -/
def execLdaAby (a : Address) (s : State) : Result := load .a (.memory (.aby a)) s

/-- LDA IZX (R90, R80). -/
def execLdaIzx (b : Byte) (s : State) : Result := load .a (.memory (.izx b)) s

/-- LDA IZY (R90, R81). -/
def execLdaIzy (b : Byte) (s : State) : Result := load .a (.memory (.izy b)) s

/-- LDX IMM (R91, R72). -/
def execLdxImm (v : Byte) (s : State) : Result := load .x (.immediate v) s

/-- LDX ZP (R91, R73). -/
def execLdxZp (b : Byte) (s : State) : Result := load .x (.memory (.zp b)) s

/-- LDX ZPY (R91, R75). -/
def execLdxZpy (b : Byte) (s : State) : Result := load .x (.memory (.zpy b)) s

/-- LDX ABS (R91, R76). -/
def execLdxAbs (a : Address) (s : State) : Result := load .x (.memory (.abs a)) s

/-- LDX ABY (R91, R78). -/
def execLdxAby (a : Address) (s : State) : Result := load .x (.memory (.aby a)) s

/-- LDY IMM (R92, R72). -/
def execLdyImm (v : Byte) (s : State) : Result := load .y (.immediate v) s

/-- LDY ZP (R92, R73). -/
def execLdyZp (b : Byte) (s : State) : Result := load .y (.memory (.zp b)) s

/-- LDY ZPX (R92, R74). -/
def execLdyZpx (b : Byte) (s : State) : Result := load .y (.memory (.zpx b)) s

/-- LDY ABS (R92, R76). -/
def execLdyAbs (a : Address) (s : State) : Result := load .y (.memory (.abs a)) s

/-- LDY ABX (R92, R77). -/
def execLdyAbx (a : Address) (s : State) : Result := load .y (.memory (.abx a)) s

/-- STA ZP (R93, R73). -/
def execStaZp (b : Byte) (s : State) : Result := store .a (.zp b) s

/-- STA ZPX (R93, R74). -/
def execStaZpx (b : Byte) (s : State) : Result := store .a (.zpx b) s

/-- STA ABS (R93, R76). -/
def execStaAbs (a : Address) (s : State) : Result := store .a (.abs a) s

/-- STA ABX (R93, R77). -/
def execStaAbx (a : Address) (s : State) : Result := store .a (.abx a) s

/-- STA ABY (R93, R78). -/
def execStaAby (a : Address) (s : State) : Result := store .a (.aby a) s

/-- STA IZX (R93, R80). -/
def execStaIzx (b : Byte) (s : State) : Result := store .a (.izx b) s

/-- STA IZY (R93, R81). -/
def execStaIzy (b : Byte) (s : State) : Result := store .a (.izy b) s

/-- STX ZP (R94, R73). -/
def execStxZp (b : Byte) (s : State) : Result := store .x (.zp b) s

/-- STX ZPY (R94, R75). -/
def execStxZpy (b : Byte) (s : State) : Result := store .x (.zpy b) s

/-- STX ABS (R94, R76). -/
def execStxAbs (a : Address) (s : State) : Result := store .x (.abs a) s

/-- STY ZP (R95, R73). -/
def execStyZp (b : Byte) (s : State) : Result := store .y (.zp b) s

/-- STY ZPX (R95, R74). -/
def execStyZpx (b : Byte) (s : State) : Result := store .y (.zpx b) s

/-- STY ABS (R95, R76). -/
def execStyAbs (a : Address) (s : State) : Result := store .y (.abs a) s

/-- TAX IMP (R96, R70). -/
def execTax (s : State) : Result := transfer .a .x s

/-- TAY IMP (R97, R70). -/
def execTay (s : State) : Result := transfer .a .y s

/-- TXA IMP (R98, R70). -/
def execTxa (s : State) : Result := transfer .x .a s

/-- TYA IMP (R99, R70). -/
def execTya (s : State) : Result := transfer .y .a s

/-- TSX IMP (R100, R70). -/
def execTsx (s : State) : Result := transfer .sp .x s

/-- TXS IMP (R101, R70): no flag changes. -/
def execTxs (s : State) : Result := .next (s.setReg .sp s.x)

end Sys2Proof.Machine
end

