-- ==== Sys2Proof/Machine/Logical.lean ====
section
/-! DEFINITION. AND, ORA, EOR (43_logical_shift_rotate.md section 1). -/

namespace Sys2Proof.Machine

/-- A logical instruction: `A` combined with the operand, Zero and Negative from the result (R120 to R122). -/
def logical (op : Byte → Byte → Byte) (src : Source) (s : State) : Result :=
  let m := s.loadOperand src
  .next ((m.2.setReg .a (op m.2.a m.1)).setZN (op m.2.a m.1))

/-- AND IMM (R120, R72). -/
def execAndImm (v : Byte) (s : State) : Result := logical (· &&& ·) (.immediate v) s

/-- AND ZP (R120, R73). -/
def execAndZp (b : Byte) (s : State) : Result := logical (· &&& ·) (.memory (.zp b)) s

/-- AND ZPX (R120, R74). -/
def execAndZpx (b : Byte) (s : State) : Result := logical (· &&& ·) (.memory (.zpx b)) s

/-- AND ABS (R120, R76). -/
def execAndAbs (a : Address) (s : State) : Result := logical (· &&& ·) (.memory (.abs a)) s

/-- AND ABX (R120, R77). -/
def execAndAbx (a : Address) (s : State) : Result := logical (· &&& ·) (.memory (.abx a)) s

/-- AND ABY (R120, R78). -/
def execAndAby (a : Address) (s : State) : Result := logical (· &&& ·) (.memory (.aby a)) s

/-- AND IZX (R120, R80). -/
def execAndIzx (b : Byte) (s : State) : Result := logical (· &&& ·) (.memory (.izx b)) s

/-- AND IZY (R120, R81). -/
def execAndIzy (b : Byte) (s : State) : Result := logical (· &&& ·) (.memory (.izy b)) s

/-- ORA IMM (R121, R72). -/
def execOraImm (v : Byte) (s : State) : Result := logical (· ||| ·) (.immediate v) s

/-- ORA ZP (R121, R73). -/
def execOraZp (b : Byte) (s : State) : Result := logical (· ||| ·) (.memory (.zp b)) s

/-- ORA ZPX (R121, R74). -/
def execOraZpx (b : Byte) (s : State) : Result := logical (· ||| ·) (.memory (.zpx b)) s

/-- ORA ABS (R121, R76). -/
def execOraAbs (a : Address) (s : State) : Result := logical (· ||| ·) (.memory (.abs a)) s

/-- ORA ABX (R121, R77). -/
def execOraAbx (a : Address) (s : State) : Result := logical (· ||| ·) (.memory (.abx a)) s

/-- ORA ABY (R121, R78). -/
def execOraAby (a : Address) (s : State) : Result := logical (· ||| ·) (.memory (.aby a)) s

/-- ORA IZX (R121, R80). -/
def execOraIzx (b : Byte) (s : State) : Result := logical (· ||| ·) (.memory (.izx b)) s

/-- ORA IZY (R121, R81). -/
def execOraIzy (b : Byte) (s : State) : Result := logical (· ||| ·) (.memory (.izy b)) s

/-- EOR IMM (R122, R72). -/
def execEorImm (v : Byte) (s : State) : Result := logical (· ^^^ ·) (.immediate v) s

/-- EOR ZP (R122, R73). -/
def execEorZp (b : Byte) (s : State) : Result := logical (· ^^^ ·) (.memory (.zp b)) s

/-- EOR ZPX (R122, R74). -/
def execEorZpx (b : Byte) (s : State) : Result := logical (· ^^^ ·) (.memory (.zpx b)) s

/-- EOR ABS (R122, R76). -/
def execEorAbs (a : Address) (s : State) : Result := logical (· ^^^ ·) (.memory (.abs a)) s

/-- EOR ABX (R122, R77). -/
def execEorAbx (a : Address) (s : State) : Result := logical (· ^^^ ·) (.memory (.abx a)) s

/-- EOR ABY (R122, R78). -/
def execEorAby (a : Address) (s : State) : Result := logical (· ^^^ ·) (.memory (.aby a)) s

/-- EOR IZX (R122, R80). -/
def execEorIzx (b : Byte) (s : State) : Result := logical (· ^^^ ·) (.memory (.izx b)) s

/-- EOR IZY (R122, R81). -/
def execEorIzy (b : Byte) (s : State) : Result := logical (· ^^^ ·) (.memory (.izy b)) s

end Sys2Proof.Machine
end

