-- ==== Sys2Proof/Machine/ShiftRotate.lean ====
section
/-! DEFINITION. ASL, LSR, ROL, ROR on the accumulator or on memory (43_logical_shift_rotate.md section 2). -/

namespace Sys2Proof.Machine

/-- A shift or rotate, as a function of the incoming Carry: read the target, write the result to it, set `C`, `Z`,
`N` (R127). In memory it is one read and one write of the same address. -/
def shift (op : Bool → Byte → Shifted) (t : Target) (s : State) : Result :=
  match t with
  | .accumulator =>
    let r := op s.flags.c s.a
    .next ((s.setReg .a r.r).setFlags (s.flags.setShift r))
  | .memory o =>
    let ea := s.resolve o
    let v := ea.2.busRead ea.1
    let r := op s.flags.c v.1
    .next ((v.2.busWrite ea.1 r.r).setFlags (s.flags.setShift r))

/-- ASL ZP (R123, R73). -/
def execAslZp (b : Byte) (s : State) : Result := shift (fun _ v => asl8 v) (.memory (.zp b)) s

/-- ASL ZPX (R123, R74). -/
def execAslZpx (b : Byte) (s : State) : Result := shift (fun _ v => asl8 v) (.memory (.zpx b)) s

/-- ASL ABS (R123, R76). -/
def execAslAbs (a : Address) (s : State) : Result := shift (fun _ v => asl8 v) (.memory (.abs a)) s

/-- ASL ABX (R123, R77). -/
def execAslAbx (a : Address) (s : State) : Result := shift (fun _ v => asl8 v) (.memory (.abx a)) s

/-- ASL ACC (R123, R71). -/
def execAslAcc (s : State) : Result := shift (fun _ v => asl8 v) .accumulator s

/-- LSR ZP (R124, R73). -/
def execLsrZp (b : Byte) (s : State) : Result := shift (fun _ v => lsr8 v) (.memory (.zp b)) s

/-- LSR ZPX (R124, R74). -/
def execLsrZpx (b : Byte) (s : State) : Result := shift (fun _ v => lsr8 v) (.memory (.zpx b)) s

/-- LSR ABS (R124, R76). -/
def execLsrAbs (a : Address) (s : State) : Result := shift (fun _ v => lsr8 v) (.memory (.abs a)) s

/-- LSR ABX (R124, R77). -/
def execLsrAbx (a : Address) (s : State) : Result := shift (fun _ v => lsr8 v) (.memory (.abx a)) s

/-- LSR ACC (R124, R71). -/
def execLsrAcc (s : State) : Result := shift (fun _ v => lsr8 v) .accumulator s

/-- ROL ZP (R125, R73). -/
def execRolZp (b : Byte) (s : State) : Result := shift (fun cin v => rol8 v cin) (.memory (.zp b)) s

/-- ROL ZPX (R125, R74). -/
def execRolZpx (b : Byte) (s : State) : Result := shift (fun cin v => rol8 v cin) (.memory (.zpx b)) s

/-- ROL ABS (R125, R76). -/
def execRolAbs (a : Address) (s : State) : Result := shift (fun cin v => rol8 v cin) (.memory (.abs a)) s

/-- ROL ABX (R125, R77). -/
def execRolAbx (a : Address) (s : State) : Result := shift (fun cin v => rol8 v cin) (.memory (.abx a)) s

/-- ROL ACC (R125, R71). -/
def execRolAcc (s : State) : Result := shift (fun cin v => rol8 v cin) .accumulator s

/-- ROR ZP (R126, R73). -/
def execRorZp (b : Byte) (s : State) : Result := shift (fun cin v => ror8 v cin) (.memory (.zp b)) s

/-- ROR ZPX (R126, R74). -/
def execRorZpx (b : Byte) (s : State) : Result := shift (fun cin v => ror8 v cin) (.memory (.zpx b)) s

/-- ROR ABS (R126, R76). -/
def execRorAbs (a : Address) (s : State) : Result := shift (fun cin v => ror8 v cin) (.memory (.abs a)) s

/-- ROR ABX (R126, R77). -/
def execRorAbx (a : Address) (s : State) : Result := shift (fun cin v => ror8 v cin) (.memory (.abx a)) s

/-- ROR ACC (R126, R71). -/
def execRorAcc (s : State) : Result := shift (fun cin v => ror8 v cin) .accumulator s

end Sys2Proof.Machine
end

