-- ==== Sys2Proof/Machine/Stack.lean ====
section
/-! DEFINITION. PHA, PLA, PHP, PLP, NOP (46_stack_status_nop.md). -/

namespace Sys2Proof.Machine

/-- PHA IMP (R160, R70). -/
def execPha (s : State) : Result := .next (s.push s.a)

/-- PLA IMP (R161, R70): Zero and Negative from the pulled byte. -/
def execPla (s : State) : Result :=
  let v := s.pull
  .next ((v.2.setReg .a v.1).setZN v.1)

/-- PHP IMP (R162, R70): bits 5 and 4 of the pushed byte are 1, the stored flags stay. -/
def execPhp (s : State) : Result := .next (s.push (s.flags.pack ||| 0x30))

/-- PLP IMP (R163, R70): all seven live flags are replaced. -/
def execPlp (s : State) : Result :=
  let b := s.pull
  .next (b.2.setFlags (Flags.unpack b.1))

/-- NOP IMP (R164, R70): no effect beyond the fetch. -/
def execNop (s : State) : Result := .next s

end Sys2Proof.Machine
end

