-- ==== Sys2Proof/WellFormed.lean ====
section
/-! DEFINITION. Well-formedness. An instruction as an assembler writes it is a mnemonic, a mode and operand bytes; it
is well formed when the Instruction Table gives the mnemonic that mode (30_encoding.md R53: "a blank cell means the
mnemonic has no such mode") and the operand bytes are as many as the mode takes (R51). -/

namespace Sys2Proof

/-- The operand bytes of a memory operand in memory order, low byte first (R51, R52). -/
def MemOperand.bytes : MemOperand → List Byte
  | .zp b | .zpx b | .zpy b | .izx b | .izy b => [b]
  | .abs a | .abx a | .aby a => [lowByte a, highByte a]

/-- The operand bytes in memory order, low byte first (R51, R52). -/
def Operand.bytes : Operand → List Byte
  | .implied | .accumulator => []
  | .immediate v => [v]
  | .memory o => o.bytes
  | .indirect p => [lowByte p, highByte p]
  | .relative d => [d]

/-- An instruction as written for an assembler (R60): any mnemonic, any mode, any operand bytes. -/
structure AsmTerm where
  mnemonic : Mnemonic
  mode : Mode
  operands : List Byte
  deriving DecidableEq, Repr

/-- The modes the Instruction Table gives a mnemonic (R53, by mnemonic). -/
def Mnemonic.modes : Mnemonic → List Mode
  | .lda | .adc | .sbc | .cmp | .and | .ora | .eor => [.imm, .zp, .zpx, .abs, .abx, .aby, .izx, .izy]
  | .ldx => [.imm, .zp, .zpy, .abs, .aby]
  | .ldy => [.imm, .zp, .zpx, .abs, .abx]
  | .sta => [.zp, .zpx, .abs, .abx, .aby, .izx, .izy]
  | .stx => [.zp, .zpy, .abs]
  | .sty => [.zp, .zpx, .abs]
  | .tax | .tay | .txa | .tya | .tsx | .txs | .inx | .iny | .dex | .dey | .rts | .pha
  | .pla | .php | .plp | .nop | .clc | .sec | .cli | .sei | .clv | .cld | .sed => [.imp]
  | .cpx | .cpy => [.imm, .zp, .abs]
  | .asl | .lsr | .rol | .ror => [.zp, .zpx, .abs, .abx, .acc]
  | .inc | .dec => [.zp, .zpx, .abs, .abx]
  | .bit => [.zp, .abs]
  | .bcc | .bcs | .beq | .bne | .bmi | .bpl | .bvc | .bvs => [.rel]
  | .jmp => [.abs, .ind]
  | .jsr => [.abs]

/-- Check 1: the mnemonic has the mode. -/
def AsmTerm.hasMode (t : AsmTerm) : Bool := t.mnemonic.modes.contains t.mode

/-- Check 2: the operand bytes are as many as the mode takes. -/
def AsmTerm.hasOperands (t : AsmTerm) : Bool := t.operands.length == t.mode.operandBytes

/-- Both checks. -/
def AsmTerm.wellFormed (t : AsmTerm) : Bool := t.hasMode && t.hasOperands

/-- An instruction as an assembler term. -/
def Instr.asm (i : Instr) : AsmTerm := { mnemonic := i.mnemonic, mode := i.mode, operands := i.operand.bytes }

/-- An instruction is well formed when its assembler term is. Every `Instr` is, by the design of the type: the
lemmas of Sys2Proof/Laws/PerInstr.lean say so constructor by constructor. -/
def Instr.wellFormed (i : Instr) : Bool := i.asm.wellFormed

end Sys2Proof
end

