-- ==== Sys2Proof/Decode.lean ====
section
/-! DEFINITION. The decoder, written from the opcode matrix of 30_encoding.md R53 (by opcode byte), and after it the
encoder, written from the other table of R53 (by mnemonic). -/

namespace Sys2Proof

/-- An entry of the Instruction Table: the instruction as a function of the operand its mode takes (R50, R53). -/
inductive TableEntry where
  | plain (i : Instr)
  | byteOperand (mk : Byte → Instr)
  | wordOperand (mk : Address → Instr)

/-- A cell of the matrix that is `--`: the opcode byte is absent (R54). -/
abbrev absent : Option TableEntry := none

/-- A cell whose mode takes no operand byte. -/
abbrev op0 (i : Instr) : Option TableEntry := some (.plain i)

/-- A cell whose mode takes one operand byte. -/
abbrev op1 (mk : Byte → Instr) : Option TableEntry := some (.byteOperand mk)

/-- A cell whose mode takes two operand bytes, low byte first. -/
abbrev op2 (mk : Address → Instr) : Option TableEntry := some (.wordOperand mk)

/-- The opcode matrix of R53, one list for each high nibble, its cells in the order of the low nibble. -/
def instructionMatrix : Nat → List (Option TableEntry)
  | 0x0 => [
      absent, op1 .oraIzx, absent, absent,
      absent, op1 .oraZp, op1 .aslZp, absent,
      op0 .php, op1 .oraImm, op0 .aslAcc, absent,
      absent, op2 .oraAbs, op2 .aslAbs, absent]
  | 0x1 => [
      op1 .bpl, op1 .oraIzy, absent, absent,
      absent, op1 .oraZpx, op1 .aslZpx, absent,
      op0 .clc, op2 .oraAby, absent, absent,
      absent, op2 .oraAbx, op2 .aslAbx, absent]
  | 0x2 => [
      op2 .jsr, op1 .andIzx, absent, absent,
      op1 .bitZp, op1 .andZp, op1 .rolZp, absent,
      op0 .plp, op1 .andImm, op0 .rolAcc, absent,
      op2 .bitAbs, op2 .andAbs, op2 .rolAbs, absent]
  | 0x3 => [
      op1 .bmi, op1 .andIzy, absent, absent,
      absent, op1 .andZpx, op1 .rolZpx, absent,
      op0 .sec, op2 .andAby, absent, absent,
      absent, op2 .andAbx, op2 .rolAbx, absent]
  | 0x4 => [
      absent, op1 .eorIzx, absent, absent,
      absent, op1 .eorZp, op1 .lsrZp, absent,
      op0 .pha, op1 .eorImm, op0 .lsrAcc, absent,
      op2 .jmpAbs, op2 .eorAbs, op2 .lsrAbs, absent]
  | 0x5 => [
      op1 .bvc, op1 .eorIzy, absent, absent,
      absent, op1 .eorZpx, op1 .lsrZpx, absent,
      op0 .cli, op2 .eorAby, absent, absent,
      absent, op2 .eorAbx, op2 .lsrAbx, absent]
  | 0x6 => [
      op0 .rts, op1 .adcIzx, absent, absent,
      absent, op1 .adcZp, op1 .rorZp, absent,
      op0 .pla, op1 .adcImm, op0 .rorAcc, absent,
      op2 .jmpInd, op2 .adcAbs, op2 .rorAbs, absent]
  | 0x7 => [
      op1 .bvs, op1 .adcIzy, absent, absent,
      absent, op1 .adcZpx, op1 .rorZpx, absent,
      op0 .sei, op2 .adcAby, absent, absent,
      absent, op2 .adcAbx, op2 .rorAbx, absent]
  | 0x8 => [
      absent, op1 .staIzx, absent, absent,
      op1 .styZp, op1 .staZp, op1 .stxZp, absent,
      op0 .dey, absent, op0 .txa, absent,
      op2 .styAbs, op2 .staAbs, op2 .stxAbs, absent]
  | 0x9 => [
      op1 .bcc, op1 .staIzy, absent, absent,
      op1 .styZpx, op1 .staZpx, op1 .stxZpy, absent,
      op0 .tya, op2 .staAby, op0 .txs, absent,
      absent, op2 .staAbx, absent, absent]
  | 0xA => [
      op1 .ldyImm, op1 .ldaIzx, op1 .ldxImm, absent,
      op1 .ldyZp, op1 .ldaZp, op1 .ldxZp, absent,
      op0 .tay, op1 .ldaImm, op0 .tax, absent,
      op2 .ldyAbs, op2 .ldaAbs, op2 .ldxAbs, absent]
  | 0xB => [
      op1 .bcs, op1 .ldaIzy, absent, absent,
      op1 .ldyZpx, op1 .ldaZpx, op1 .ldxZpy, absent,
      op0 .clv, op2 .ldaAby, op0 .tsx, absent,
      op2 .ldyAbx, op2 .ldaAbx, op2 .ldxAby, absent]
  | 0xC => [
      op1 .cpyImm, op1 .cmpIzx, absent, absent,
      op1 .cpyZp, op1 .cmpZp, op1 .decZp, absent,
      op0 .iny, op1 .cmpImm, op0 .dex, absent,
      op2 .cpyAbs, op2 .cmpAbs, op2 .decAbs, absent]
  | 0xD => [
      op1 .bne, op1 .cmpIzy, absent, absent,
      absent, op1 .cmpZpx, op1 .decZpx, absent,
      op0 .cld, op2 .cmpAby, absent, absent,
      absent, op2 .cmpAbx, op2 .decAbx, absent]
  | 0xE => [
      op1 .cpxImm, op1 .sbcIzx, absent, absent,
      op1 .cpxZp, op1 .sbcZp, op1 .incZp, absent,
      op0 .inx, op1 .sbcImm, op0 .nop, absent,
      op2 .cpxAbs, op2 .sbcAbs, op2 .incAbs, absent]
  | 0xF => [
      op1 .beq, op1 .sbcIzy, absent, absent,
      absent, op1 .sbcZpx, op1 .incZpx, absent,
      op0 .sed, op2 .sbcAby, absent, absent,
      absent, op2 .sbcAbx, op2 .incAbx, absent]
  | _ => []

/-- The Instruction Table: opcode byte to entry, or `none` for an absent opcode (R53, R54, R59). -/
def tableEntry (op : Byte) : Option TableEntry :=
  (instructionMatrix (op.toNat / 16)).getD (op.toNat % 16) absent

/-- Why bytes are no instruction. -/
inductive DecodeError where
  /-- There is no byte to decode. -/
  | noBytes
  /-- The opcode byte is one of the 107 absent from the Instruction Table (R54). -/
  | absentOpcode (op : Byte)
  /-- The opcode is present and operand bytes are missing after it (R51). -/
  | truncated (op : Byte)
  deriving DecidableEq, Repr

/-- The answer of the decoder: an instruction and the bytes after it, or a named rejection. -/
inductive DecodeResult where
  | ok (i : Instr) (rest : List Byte)
  | rejected (e : DecodeError)
  deriving DecidableEq, Repr

/-- The operand bytes that follow an opcode, assembled into the instruction (R51, R52). -/
def decodeOperands (op : Byte) : TableEntry → List Byte → DecodeResult
  | .plain i, rest => .ok i rest
  | .byteOperand mk, b :: rest => .ok (mk b) rest
  | .byteOperand _, [] => .rejected (.truncated op)
  | .wordOperand mk, lo :: hi :: rest => .ok (mk (word hi lo)) rest
  | .wordOperand _, _ :: [] => .rejected (.truncated op)
  | .wordOperand _, [] => .rejected (.truncated op)

/-- The decoder, on any bytes: a pure function of the opcode byte and the operand bytes after it (R50, R59). -/
def decode : List Byte → DecodeResult
  | [] => .rejected .noBytes
  | op :: rest =>
    match tableEntry op with
    | none => .rejected (.absentOpcode op)
    | some e => decodeOperands op e rest

/-- Byte `k` of a number, counted from its least significant byte. -/
def tableByte (w k : Nat) : Byte := BitVec.ofNat 8 (w / 256 ^ k)

/-- The longest instruction's bytes, from a word numbered as the opcode table numbers it: the first byte is bits
7 to 0, and the bits from `nbits` up are 0. -/
def tableBytes (nbits w : Nat) : List Byte :=
  let v := w % 2 ^ nbits
  [tableByte v 0, tableByte v 1, tableByte v 2]

/-- The instruction of a word numbered as the opcode table numbers it, by the decoder. -/
def decodeTableWord (nbits w : Nat) : Option Instr :=
  match decode (tableBytes nbits w) with
  | .ok i _ => some i
  | .rejected _ => none

/-- The opcode byte of each mode a mnemonic has (R53, by mnemonic). -/
def opcodeCells : Mnemonic → List (Mode × Byte)
  | .lda => [(.imm, 0xA9), (.zp, 0xA5), (.zpx, 0xB5), (.abs, 0xAD), (.abx, 0xBD),
      (.aby, 0xB9), (.izx, 0xA1), (.izy, 0xB1)]
  | .ldx => [(.imm, 0xA2), (.zp, 0xA6), (.zpy, 0xB6), (.abs, 0xAE), (.aby, 0xBE)]
  | .ldy => [(.imm, 0xA0), (.zp, 0xA4), (.zpx, 0xB4), (.abs, 0xAC), (.abx, 0xBC)]
  | .sta => [(.zp, 0x85), (.zpx, 0x95), (.abs, 0x8D), (.abx, 0x9D), (.aby, 0x99),
      (.izx, 0x81), (.izy, 0x91)]
  | .stx => [(.zp, 0x86), (.zpy, 0x96), (.abs, 0x8E)]
  | .sty => [(.zp, 0x84), (.zpx, 0x94), (.abs, 0x8C)]
  | .tax => [(.imp, 0xAA)]
  | .tay => [(.imp, 0xA8)]
  | .txa => [(.imp, 0x8A)]
  | .tya => [(.imp, 0x98)]
  | .tsx => [(.imp, 0xBA)]
  | .txs => [(.imp, 0x9A)]
  | .adc => [(.imm, 0x69), (.zp, 0x65), (.zpx, 0x75), (.abs, 0x6D), (.abx, 0x7D),
      (.aby, 0x79), (.izx, 0x61), (.izy, 0x71)]
  | .sbc => [(.imm, 0xE9), (.zp, 0xE5), (.zpx, 0xF5), (.abs, 0xED), (.abx, 0xFD),
      (.aby, 0xF9), (.izx, 0xE1), (.izy, 0xF1)]
  | .cmp => [(.imm, 0xC9), (.zp, 0xC5), (.zpx, 0xD5), (.abs, 0xCD), (.abx, 0xDD),
      (.aby, 0xD9), (.izx, 0xC1), (.izy, 0xD1)]
  | .cpx => [(.imm, 0xE0), (.zp, 0xE4), (.abs, 0xEC)]
  | .cpy => [(.imm, 0xC0), (.zp, 0xC4), (.abs, 0xCC)]
  | .and => [(.imm, 0x29), (.zp, 0x25), (.zpx, 0x35), (.abs, 0x2D), (.abx, 0x3D),
      (.aby, 0x39), (.izx, 0x21), (.izy, 0x31)]
  | .ora => [(.imm, 0x09), (.zp, 0x05), (.zpx, 0x15), (.abs, 0x0D), (.abx, 0x1D),
      (.aby, 0x19), (.izx, 0x01), (.izy, 0x11)]
  | .eor => [(.imm, 0x49), (.zp, 0x45), (.zpx, 0x55), (.abs, 0x4D), (.abx, 0x5D),
      (.aby, 0x59), (.izx, 0x41), (.izy, 0x51)]
  | .asl => [(.zp, 0x06), (.zpx, 0x16), (.abs, 0x0E), (.abx, 0x1E), (.acc, 0x0A)]
  | .lsr => [(.zp, 0x46), (.zpx, 0x56), (.abs, 0x4E), (.abx, 0x5E), (.acc, 0x4A)]
  | .rol => [(.zp, 0x26), (.zpx, 0x36), (.abs, 0x2E), (.abx, 0x3E), (.acc, 0x2A)]
  | .ror => [(.zp, 0x66), (.zpx, 0x76), (.abs, 0x6E), (.abx, 0x7E), (.acc, 0x6A)]
  | .inc => [(.zp, 0xE6), (.zpx, 0xF6), (.abs, 0xEE), (.abx, 0xFE)]
  | .dec => [(.zp, 0xC6), (.zpx, 0xD6), (.abs, 0xCE), (.abx, 0xDE)]
  | .inx => [(.imp, 0xE8)]
  | .iny => [(.imp, 0xC8)]
  | .dex => [(.imp, 0xCA)]
  | .dey => [(.imp, 0x88)]
  | .bit => [(.zp, 0x24), (.abs, 0x2C)]
  | .bcc => [(.rel, 0x90)]
  | .bcs => [(.rel, 0xB0)]
  | .beq => [(.rel, 0xF0)]
  | .bne => [(.rel, 0xD0)]
  | .bmi => [(.rel, 0x30)]
  | .bpl => [(.rel, 0x10)]
  | .bvc => [(.rel, 0x50)]
  | .bvs => [(.rel, 0x70)]
  | .jmp => [(.abs, 0x4C), (.ind, 0x6C)]
  | .jsr => [(.abs, 0x20)]
  | .rts => [(.imp, 0x60)]
  | .pha => [(.imp, 0x48)]
  | .pla => [(.imp, 0x68)]
  | .php => [(.imp, 0x08)]
  | .plp => [(.imp, 0x28)]
  | .nop => [(.imp, 0xEA)]
  | .clc => [(.imp, 0x18)]
  | .sec => [(.imp, 0x38)]
  | .cli => [(.imp, 0x58)]
  | .sei => [(.imp, 0x78)]
  | .clv => [(.imp, 0xB8)]
  | .cld => [(.imp, 0xD8)]
  | .sed => [(.imp, 0xF8)]

/-- The opcode byte of a mnemonic in a mode, if the mnemonic has the mode (R53). -/
def opcodeOf (mn : Mnemonic) (m : Mode) : Option Byte := (opcodeCells mn).lookup m

/-- The bytes of an assembler term, none if it is not well formed: the opcode, then the operand bytes (R50). -/
def assemble (t : AsmTerm) : Option (List Byte) :=
  if t.wellFormed then (opcodeOf t.mnemonic t.mode).map (· :: t.operands) else none

/-- The encoder: the bytes of an instruction, opcode first, operand bytes at ascending addresses (R50, R51). -/
def encode (i : Instr) : List Byte := (assemble i.asm).getD []

/-- The opcode byte of an instruction, by the encoder's table (R53). -/
def Instr.opcode? (i : Instr) : Option Byte := opcodeOf i.mnemonic i.mode

end Sys2Proof
end

