-- ==== Sys2Proof/Machine/Fetch.lean ====
section
/-! DEFINITION. Fetch, and the part of Resolve that reads operand bytes (30_encoding.md R56, R57). -/

namespace Sys2Proof.Machine

/-- `fetch8()`: the byte at `PC`, and `PC` past it (R57). -/
def State.fetch8 (s : State) : Byte × State :=
  let b := s.busRead s.pc
  (b.1, b.2.setPc (s.pc + 1))

/-- What a fetch finds: an instruction and the state with `PC` after its last byte, or an absent opcode and the state
with `PC` still at it (R56). -/
inductive Fetched where
  | instr (i : Instr) (s : State)
  | absent (op : Byte) (s : State)

/-- Read the operand bytes an entry of the Instruction Table asks for, at ascending addresses (R57). -/
def State.fetchOperands (s : State) : TableEntry → Fetched
  | .plain i => .instr i s
  | .byteOperand make =>
    let b := s.fetch8
    .instr (make b.1) b.2
  | .wordOperand make =>
    let lo := s.fetch8
    let hi := lo.2.fetch8
    .instr (make (word hi.1 lo.1)) hi.2

/-- Fetch: the opcode is read at `PC` and looked up; an absent one leaves `PC` at it and no operand byte is read
(R54 to R57). -/
def State.fetchInstr (s : State) : Fetched :=
  let op := s.busRead s.pc
  match tableEntry op.1 with
  | none => .absent op.1 op.2
  | some e => (op.2.setPc (s.pc + 1)).fetchOperands e

end Sys2Proof.Machine
end

