-- ==== Sys2Proof/Machine/Step.lean ====
section
/-! DEFINITION. One step of the core (30_encoding.md R56 to R58; 60_exceptions.md R180 to R183). -/

namespace Sys2Proof.Machine

/-- `Step()`: a halted core reports failure (R183); otherwise fetch, then execute the instruction, or take
`InvalidOpcode` for an absent opcode (R56 to R58, R180). -/
def step (s : State) : Host.Outcome State Fault Refusal :=
  if s.halted then .fault (.halted s.faultOpcode s.faultPc)
  else
    match s.beginStep.fetchInstr with
    | .instr i t => exec i t
    | .absent op t => .next (t.takeInvalidOpcode op s.pc)

/-- The state with an instruction's bytes stored where the next step fetches: at `PC` and the two addresses after it.
For the fetch to read them, the core is not halted and no external window covers those addresses (log entry 18). -/
def State.withFetchWord (s : State) (nbits w : Nat) : State :=
  let v := w % 2 ^ nbits
  let p1 := s.pc + 1
  let p2 := s.pc + 2
  { s with
    halted := false
    external := s.external.filter (fun e => !(e.covers s.pc || e.covers p1 || e.covers p2))
    mem := ((s.mem.set s.pc.toNat (tableByte v 0)).set p1.toNat (tableByte v 1)).set p2.toNat (tableByte v 2) }

end Sys2Proof.Machine
end

