-- ==== Sys2Proof/Machine/HostPort.lean ====
section
/-! DEFINITION. What the host can do to the core between steps (00_scope.md R6; 10_state.md R24, R26; 70_reset_and_hazards.md
R200). These are functions beside `step`: `step` never calls them (log entry 15). -/

namespace Sys2Proof.Machine

/-- `Reset(RESET_PC)`: registers, flags, `PC` and the fault latch; memory is untouched and not accessed (R200 to
R203). -/
def State.hostReset (s : State) (resetPc : Address) : State :=
  { s with
    a := Config.resetIndex
    x := Config.resetIndex
    y := Config.resetIndex
    sp := Config.resetSp
    flags := { c := false, z := false, i := false, d := false, b := false, v := false, n := false }
    pc := resetPc
    halted := false
    faultOpcode := 0x00
    faultPc := 0x0000
    accesses := [] }

/-- `ProcessorStatus()`: the status byte, with no side effect (R18, R26). -/
def State.processorStatus (s : State) : Byte := s.flags.pack

/-- `SetProcessorStatus(b)`: the flags are loaded and nothing else changes; a halted core stays halted (R19, R26,
R183). -/
def State.setProcessorStatus (s : State) (b : Byte) : State := s.setFlags (Flags.unpack b)

/-- The numeric cause of the fault latch: 0 no fault, 1 `InvalidOpcode` (R180, 92 D11). -/
def State.faultCause (s : State) : Nat := if s.halted then 1 else 0

/-- The embedding system changes what is behind the memory port between two steps (R24, R39, R207). -/
def State.embedMemory (s : State) (m : Memory) (external : List Window) : State :=
  { s with mem := m, external := external }

end Sys2Proof.Machine
end

