-- ==== Sys2Proof/Safety.lean ====
section
/-! DEFINITION. What counts as a safe run, in the terms the statements use. -/

namespace Sys2Proof.Machine

/-- The fault latch agrees with what set it: halted means that `PC` is still at the recorded address and the recorded
byte is absent from the Instruction Table (R181), and not halted means that the record is zero (R200). -/
abbrev State.LatchAgrees (s : State) : Prop :=
  if s.halted then s.faultPc = s.pc ∧ (tableEntry s.faultOpcode).isNone = true
  else s.faultOpcode = 0x00 ∧ s.faultPc = 0x0000

/-- The invariant of the machine: memory is in canonical form, the fault latch agrees, and a step has made at most
five accesses (the longest rows of the table of R44). -/
abbrev State.Inv (s : State) : Prop :=
  s.mem.wf = true ∧ s.LatchAgrees ∧ s.accesses.length ≤ 5

/-- The core has not met an absent opcode (R212: "with `halted = 0`"). -/
abbrev State.Safe (s : State) : Prop := s.halted = false

/-- `n` steps lead from one state to another. -/
def Steps (n : Nat) (s t : State) : Prop := Host.Core.run Sys2Proof.core n s = Host.Outcome.next t

/-- A run of `n` steps that ends in a state that is not halted: the only end of a run about which a program's claim
says anything (R183, R212). -/
def SafeRun (n : Nat) (s t : State) : Prop := Steps n s t ∧ t.Safe

/-- The states that steps and the host's actions between steps reach from `State.reset` (R205, R212, 92 D27). -/
inductive Reachable : State → Prop where
  | reset : Reachable State.reset
  | step {s t : State} : Reachable s → step s = .next t → Reachable t
  | hostReset {s : State} (pc : Address) : Reachable s → Reachable (s.hostReset pc)
  | setStatus {s : State} (b : Byte) : Reachable s → Reachable (s.setProcessorStatus b)
  | memory {s : State} (m : Memory) (ext : List Window) : m.wf = true → Reachable s → Reachable (s.embedMemory m ext)

end Sys2Proof.Machine
end

