-- ==== Sys2Proof/Certificates/Slice0/Obligations.lean ====
section
/-! DEFINITION. The statements for the provers, each from numbered rules of spec/. `OBLIGATIONS.json` lists them. -/

open Sys2Proof Sys2Proof.Machine

namespace Sys2Proof.Spec

/-! ### Words the statements share -/

/-- The Instruction Table gives a mnemonic exactly these modes and opcode bytes (R53): an opcode byte followed by any
two bytes decodes to the mnemonic in the mode if and only if the cell is listed. -/
def EncodedAs (mn : Mnemonic) (cells : List (Mode × Byte)) : Prop :=
  ∀ (m : Mode) (op b1 b2 : Byte),
    (m, op) ∈ cells ↔ ∃ i rest, decode [op, b1, b2] = .ok i rest ∧ i.mnemonic = mn ∧ i.mode = m

/-- The 107 absent opcode bytes as R54 lists them. -/
def absentOpcodes : List Byte := [
    0x00, 0x02, 0x03, 0x04, 0x07, 0x0B, 0x0C, 0x0F, 0x12, 0x13, 0x14, 0x17,
    0x1A, 0x1B, 0x1C, 0x1F, 0x22, 0x23, 0x27, 0x2B, 0x2F, 0x32, 0x33, 0x34,
    0x37, 0x3A, 0x3B, 0x3C, 0x3F, 0x40, 0x42, 0x43, 0x44, 0x47, 0x4B, 0x4F,
    0x52, 0x53, 0x54, 0x57, 0x5A, 0x5B, 0x5C, 0x5F, 0x62, 0x63, 0x64, 0x67,
    0x6B, 0x6F, 0x72, 0x73, 0x74, 0x77, 0x7A, 0x7B, 0x7C, 0x7F, 0x80, 0x82,
    0x83, 0x87, 0x89, 0x8B, 0x8F, 0x92, 0x93, 0x97, 0x9B, 0x9C, 0x9E, 0x9F,
    0xA3, 0xA7, 0xAB, 0xAF, 0xB2, 0xB3, 0xB7, 0xBB, 0xBF, 0xC2, 0xC3, 0xC7,
    0xCB, 0xCF, 0xD2, 0xD3, 0xD4, 0xD7, 0xDA, 0xDB, 0xDC, 0xDF, 0xE2, 0xE3,
    0xE7, 0xEB, 0xEF, 0xF2, 0xF3, 0xF4, 0xF7, 0xFA, 0xFB, 0xFC, 0xFF]

/-- The flags with `Z` and `N` set from a byte (R20). -/
def withZN (f : Flags) (v : Byte) : Flags := { f with z := decide (v.toNat = 0), n := v.getLsbD 7 }

/-- The three bytes that the memory port answers at `PC` and after it. -/
def codeBytes (s : State) : List Byte :=
  [s.answer 0 s.pc, s.answer 1 (s.pc + 1), s.answer 2 (s.pc + 2)]

/-- The state in which an instruction of `n` bytes executes: `PC` after it, its bytes read in order (R56, R57). -/
def afterFetch (s : State) (n : Nat) : State :=
  { s with
    pc := s.pc + BitVec.ofNat 16 n
    reads := s.reads + n
    accesses := List.take n [
      { kind := .read, addr := s.pc, value := s.answer 0 s.pc },
      { kind := .read, addr := s.pc + 1, value := s.answer 1 (s.pc + 1) },
      { kind := .read, addr := s.pc + 2, value := s.answer 2 (s.pc + 2) }] }

/-- The stack address of a stack pointer value (R14). -/
def stackAt (sp : Byte) : Address := 0x0100 + sp.setWidth 16

/-- The state after one byte is written at an address (R30, R38): stored where there is storage, and recorded in the
model's own list of accesses (log entry 5). -/
def written (s : State) (p : Address) (v : Byte) : State :=
  { s with
    mem := if s.isExternal p then s.mem else s.mem.set p.toNat v
    accesses := s.accesses ++ [{ kind := .write, addr := p, value := v }] }

/-- The state after one byte is read at an address (R30): only the model's own record and count of reads change (log
entries 3 and 5). -/
def readAt (s : State) (p : Address) : State :=
  { s with
    reads := s.reads + 1
    accesses := s.accesses ++ [{ kind := .read, addr := p, value := s.answer 0 p }] }

/-- Two states with the same registers, flags and fault latch. -/
def SameCore (s t : State) : Prop :=
  t = { s with mem := t.mem, external := t.external, reads := t.reads, accesses := t.accesses }

/-- Two states that differ at most in the flags `I`, `D` and `B`. -/
def SameButIDB (s t : State) : Prop :=
  t = { s with flags := { s.flags with i := t.flags.i, d := t.flags.d, b := t.flags.b } }

/-- The mnemonics that transfer control (R13, 45_control_flow.md). -/
def transfers : List Mnemonic := [.bcc, .bcs, .beq, .bne, .bmi, .bpl, .bvc, .bvs, .jmp, .jsr, .rts]

/-- The mnemonics whose memory forms read a byte and write it back (R9 RMW). -/
def rmw : List Mnemonic := [.asl, .lsr, .rol, .ror, .inc, .dec]

/-- The pointer reads of an operand, low byte then high byte (table of R44). -/
def pointerReads (s : State) : Operand → List (AccessKind × Address)
  | .memory (.izx b) => [(.read, (b + s.x).setWidth 16), (.read, (b + s.x + 1).setWidth 16)]
  | .memory (.izy b) => [(.read, b.setWidth 16), (.read, (b + 1).setWidth 16)]
  | .indirect p => [(.read, p), (.read, (p &&& 0xFF00) ||| ((p + 1) &&& 0x00FF))]
  | _ => []

/-- The data and stack accesses of an instruction, by its operation class (table and list of R44). -/
def dataAccesses (s : State) (i : Instr) : List (AccessKind × Address) :=
  match i.mnemonic, i.operand with
  | .pha, _ | .php, _ => [(.write, stackAt s.sp)]
  | .pla, _ | .plp, _ => [(.read, stackAt (s.sp + 1))]
  | .jsr, _ => [(.write, stackAt s.sp), (.write, stackAt (s.sp - 1))]
  | .rts, _ => [(.read, stackAt (s.sp + 1)), (.read, stackAt (s.sp + 2))]
  | .jmp, _ => []
  | .sta, .memory o | .stx, .memory o | .sty, .memory o => [(.write, (s.resolve o).1)]
  | .asl, .memory o | .lsr, .memory o | .rol, .memory o | .ror, .memory o | .inc, .memory o | .dec, .memory o =>
    [(.read, (s.resolve o).1), (.write, (s.resolve o).1)]
  | _, .memory o => [(.read, (s.resolve o).1)]
  | _, _ => []

end Sys2Proof.Spec

open Sys2Proof.Spec

/-! ### Encoding -/

/-- R50 to R53: no bit of an encoding is dropped. Decoding the encoding of any instruction, whatever bytes follow, gives
the instruction and those bytes. -/
def Obligations.DecodeEncodeRoundTrip : Prop :=
  ∀ (i : Instr) (rest : List Byte), decode (encode i ++ rest) = .ok i rest

/-- R50 to R53: each instruction has one encoding. Bytes that decode are the encoding of what they decode to, then
the rest. -/
def Obligations.DecodedBytesAreTheEncoding : Prop :=
  ∀ (bytes : List Byte) (i : Instr) (rest : List Byte), decode bytes = .ok i rest → bytes = encode i ++ rest

/-- R50, R59: the opcode byte alone selects the mnemonic, the mode and the length. -/
def Obligations.OpcodeAloneSelectsInstruction : Prop :=
  ∀ (op : Byte) (r1 r2 t1 t2 : List Byte) (i1 i2 : Instr),
    decode (op :: r1) = .ok i1 t1 → decode (op :: r2) = .ok i2 t2 →
      i1.mnemonic = i2.mnemonic ∧ i1.mode = i2.mode ∧ r1.length = i1.mode.operandBytes + t1.length ∧
        r2.length = i1.mode.operandBytes + t2.length

/-- R53: an assembler term is well formed exactly when it is some instruction written out, and what it assembles to
decodes to that instruction. -/
def Obligations.WellFormedTermsAreInstructions : Prop :=
  (∀ t : AsmTerm, t.wellFormed = true ↔ ∃ i : Instr, i.asm = t) ∧
  ∀ (t : AsmTerm) (bytes : List Byte), assemble t = some bytes → ∃ i : Instr, i.asm = t ∧ decode bytes = .ok i []

/-- R51 to R53, R60: a word for each of the thirteen formats, the examples of R60 among them, decodes to the instruction
it stands for. -/
def Obligations.SpecWordsDecode : Prop :=
  decode [0xA9, 0x41] = .ok (.ldaImm 0x41) [] ∧ decode [0x95, 0xF7] = .ok (.staZpx 0xF7) [] ∧
  decode [0xA5, 0x10] = .ok (.ldaZp 0x10) [] ∧ decode [0xB9, 0x00, 0x02] = .ok (.ldaAby 0x0200) [] ∧
  decode [0xAA] = .ok .tax [] ∧
  decode [0xB6, 0x10] = .ok (.ldxZpy 0x10) [] ∧ decode [0x20, 0x34, 0x12] = .ok (.jsr 0x1234) [] ∧
  decode [0xBD, 0x00, 0x02] = .ok (.ldaAbx 0x0200) [] ∧ decode [0x6C, 0xFF, 0x02] = .ok (.jmpInd 0x02FF) [] ∧
  decode [0xA1, 0xB3] = .ok (.ldaIzx 0xB3) [] ∧ decode [0xB1, 0x10] = .ok (.ldaIzy 0x10) [] ∧
  decode [0xD0, 0xFB] = .ok (.bne 0xFB) [] ∧ decode [0x0A] = .ok .aslAcc [] ∧ decode [0xEA] = .ok .nop []

/-! ### The step -/

/-- R56 to R58: a step of a core that is not halted, at bytes that decode to an instruction, is that instruction
executed with `PC` after its last byte and exactly its bytes read, in order. -/
def Obligations.StepRunsDecodedInstruction : Prop :=
  ∀ (s : State) (i : Instr) (rest : List Byte), s.halted = false → decode (codeBytes s) = .ok i rest →
    step s = exec i (afterFetch s i.length)

/-- R54, R56, R180, R181: the decoder rejects exactly the 107 listed bytes, and a step at one of them reads that one
byte, records it and its address, halts, and changes nothing else: `PC` stays at the byte. `reads` and `accesses` are
the model's own record of that read (log entries 3 and 5). That the failing step answers a next state, with the failure
in the latch, is the model's choice (log entry 7). -/
def Obligations.AbsentOpcodeHaltsCore : Prop :=
  absentOpcodes.length = 107 ∧
  (∀ (op : Byte) (rest : List Byte), decode (op :: rest) = .rejected (.absentOpcode op) ↔ op ∈ absentOpcodes) ∧
  ∀ (s : State) (op : Byte), s.halted = false → op = s.answer 0 s.pc → op ∈ absentOpcodes →
    step s = .next { s with
      halted := true, faultOpcode := op, faultPc := s.pc, reads := s.reads + 1
      accesses := [{ kind := .read, addr := s.pc, value := op }] }

/-- R180, R188: nothing else is an exception. A step that answers a next state leaves the core halted exactly when the
byte at `PC` was absent, and the fault latch is as it was otherwise. -/
def Obligations.InvalidOpcodeIsTheOnlyException : Prop :=
  ∀ s t : State, step s = .next t →
    (t.halted = true ↔ s.answer 0 s.pc ∈ absentOpcodes) ∧
    (s.answer 0 s.pc ∉ absentOpcodes → t.faultOpcode = s.faultOpcode ∧ t.faultPc = s.faultPc)

/-- R183: a step reports failure exactly when the core is halted, with no next state and so no change; a step of any
other core answers a next state; `SetProcessorStatus` leaves the halt and `Reset` clears it. That the report is the
outcome `fault` is the model's choice (log entry 7). -/
def Obligations.StepFailsExactlyWhenHalted : Prop :=
  (∀ s : State, s.halted = true → step s = .fault (.halted s.faultOpcode s.faultPc)) ∧
  (∀ s : State, s.halted = false → ∃ t : State, step s = .next t) ∧
  (∀ (s : State) (b : Byte), (s.setProcessorStatus b).halted = s.halted ∧
    (s.setProcessorStatus b).flags = Flags.unpack b) ∧
  ∀ (s : State) (p : Address), (s.hostReset p).halted = false

/-- R187, R188: every instruction completes in every state, with the fault latch and the windows of memory as they
were. -/
def Obligations.EveryInstructionCompletes : Prop :=
  ∀ (i : Instr) (s : State), ∃ t : State, exec i s = .next t ∧ t.halted = s.halted ∧ t.faultOpcode = s.faultOpcode ∧
    t.faultPc = s.faultPc ∧ t.external = s.external

/-- R12, R13: an instruction that does not transfer control leaves `PC` at its natural successor, its address plus its
length modulo 65536; an absent opcode leaves `PC` at itself. -/
def Obligations.PcMovesToNaturalSuccessor : Prop :=
  (∀ (s t : State) (i : Instr) (rest : List Byte), s.halted = false → decode (codeBytes s) = .ok i rest →
    i.mnemonic ∉ transfers → step s = .next t → t.pc.toNat = (s.pc.toNat + i.length) % 65536) ∧
  ∀ s t : State, step s = .next t → s.answer 0 s.pc ∈ absentOpcodes → t.pc = s.pc

/-! ### Invariants and runs -/

/-- Every step keeps the invariant: memory in canonical form, the fault latch in agreement with `PC` and the
Instruction Table (R181, R200), and at most five accesses in a step (R44). -/
def Obligations.StepKeepsInvariant : Prop :=
  ∀ s t : State, s.Inv → step s = .next t → t.Inv

/-- The invariant holds after reset, and after `Reset` of any state whose memory is in canonical form (R200). -/
def Obligations.ResetMeetsInvariant : Prop :=
  State.reset.Inv ∧ ∀ (s : State) (p : Address), s.mem.wf = true → (s.hostReset p).Inv

/-- The invariant holds in every state that steps and the host's actions between steps reach (R183, R205, R212). -/
def Obligations.ReachableStatesMeetInvariant : Prop :=
  ∀ s : State, Reachable s → s.Inv

/-- R183, R212: a run of `n` steps passes only through states that are not halted before its last. -/
def Obligations.RunsPassThroughUnhaltedStates : Prop :=
  ∀ (n k : Nat) (s t : State), Steps n s t → k < n → ∃ u : State, Steps k s u ∧ u.Safe ∧ Steps (n - k) u t

/-! ### Information flow -/

/-- R22, R23: no hidden state. What earlier steps read and wrote, and the record of a latch that is not set, do not reach
a step: two states that differ in them alone take the same step, and after it they differ at most in that record, in
which they agree if the step halts. -/
def Obligations.StaleRecordsReachNothing : Prop :=
  ∀ (s : State) (l : List Access) (op : Byte) (p : Address), s.halted = false →
    ∃ t u : State, step s = .next t ∧ step { s with accesses := l, faultOpcode := op, faultPc := p } = .next u ∧
      u = { t with faultOpcode := u.faultOpcode, faultPc := u.faultPc } ∧
      (t.halted = true → u.faultOpcode = t.faultOpcode ∧ u.faultPc = t.faultPc)

/-- R21, R185: `I`, `D` and `B` are storage only. States that differ at most in them stay so under every instruction
but PHP, which pushes `I` and `D`; under every instruction, PHP too, `B` alone reaches nothing but itself. -/
def Obligations.StorageOnlyFlagsReachNothing : Prop :=
  (∀ (i : Instr) (s t : State), i ≠ .php → SameButIDB s t →
    ∃ s' t' : State, exec i s = .next s' ∧ exec i t = .next t' ∧ SameButIDB s' t') ∧
  ∀ (i : Instr) (s : State) (b : Bool),
    ∃ s' t' : State, exec i s = .next s' ∧ exec i (s.setFlags { s.flags with b := b }) = .next t' ∧
      t' = s'.setFlags { s'.flags with b := t'.flags.b }

/-- R5, R37: the bytes that memory answers to the recorded reads are all that an instruction takes from memory. In a
state with the same registers whose memory answers those reads with those bytes, the instruction gives the same
registers and makes the same accesses. -/
def Obligations.RecordedReadsAreTheOnlyMemoryInputs : Prop :=
  ∀ (i : Instr) (s t u : State) (l : List Access),
    exec i s = .next t → t.accesses = s.accesses ++ l → SameCore s u →
    (∀ (k : Nat) (e : Access), (l.filter (·.kind = .read))[k]? = some e → u.answer k e.addr = e.value) →
    ∃ v : State, exec i u = .next v ∧ SameCore t v ∧ v.accesses = u.accesses ++ l

/-! ### Memory -/

/-- R30, R31, R38: one read and one write of the port. A read gives the stored byte where there is storage, and a free
value elsewhere (log entries 2 and 3), and changes only the record and the count of reads; a write stores its byte
where there is storage, leaves every other byte, and always completes. -/
def Obligations.PortReadsAndWritesOneByte : Prop :=
  (∀ (s : State) (p : Address), s.busRead p = (s.answer 0 p, readAt s p)) ∧
  (∀ (s : State) (k : Nat) (p : Address), s.isExternal p = false → s.answer k p = s.byteAt p) ∧
  (∀ (s : State) (k : Nat) (p : Address), s.isExternal p = true → s.answer k p = Config.externalByte (s.reads + k)) ∧
  (∀ (s : State) (p : Address) (v : Byte), s.busWrite p v = written s p v) ∧
  (∀ (s : State) (p : Address) (v : Byte), s.mem.wf = true → s.isExternal p = false →
    (s.busWrite p v).byteAt p = v) ∧
  (∀ (s : State) (p : Address) (v : Byte), s.isExternal p = true → (s.busWrite p v).mem = s.mem) ∧
  ∀ (s : State) (p q : Address) (v : Byte), q ≠ p → (s.busWrite p v).byteAt q = s.byteAt q

/-- The canonical form makes equal memories equal data (log entry 1): two memories in canonical form that read the same
at every address of the space are the same list. -/
def Obligations.CanonicalMemoriesAreEqual : Prop :=
  ∀ m n : Memory, m.wf = true → n.wf = true → (∀ p : Address, m.get p.toNat = n.get p.toNat) → m = n

/-- R37, R44: an instruction makes exactly the accesses of the table, each once and in order, after those of its fetch:
pointer reads, then the data read, the data write, the pushes or the pulls. The data read of an immediate is among
those of the fetch, which is the model's reading (log entry 8). -/
def Obligations.AccessesFollowTable : Prop :=
  ∀ (i : Instr) (s t : State), exec i s = .next t →
    ∃ l : List Access, t.accesses = s.accesses ++ l ∧
      l.map (fun e => (e.kind, e.addr)) = pointerReads s i.operand ++ dataAccesses s i ∧
      t.reads = s.reads + (l.filter (·.kind = .read)).length

/-- R41, R207: a store is seen by the very next fetch. Take any write that any instruction makes: a store, a
read-modify-write, a push. If it went to the address `PC` then holds, the next step reads the byte written as its
opcode; if it went to an operand byte of the instruction decoded there, the next step reads the byte written as that
operand byte. What STA, STX and STY write there is their register. -/
def Obligations.StoreIsSeenByNextFetch : Prop :=
  (∀ (i : Instr) (s t u : State) (l : List Access) (e : Access),
    exec i s = .next t → t.accesses = s.accesses ++ l → e ∈ l → e.kind = .write → e.addr = t.pc →
    s.mem.wf = true → s.isExternal t.pc = false → s.halted = false → step t = .next u →
    u.accesses.head? = some { kind := .read, addr := t.pc, value := e.value }) ∧
  (∀ (i j : Instr) (s t u : State) (l : List Access) (e : Access) (rest : List Byte) (n : Nat),
    exec i s = .next t → t.accesses = s.accesses ++ l → e ∈ l → e.kind = .write →
    decode (codeBytes t) = .ok j rest → n < j.length → e.addr = t.pc + BitVec.ofNat 16 n →
    s.mem.wf = true → s.isExternal e.addr = false → s.halted = false → step t = .next u →
    u.accesses[n]? = some { kind := .read, addr := e.addr, value := e.value }) ∧
  ∀ (i : Instr) (r : Reg) (s t u : State) (o : MemOperand),
    (i.mnemonic, r) ∈ [(Mnemonic.sta, Reg.a), (.stx, .x), (.sty, .y)] → i.operand = .memory o →
    exec i s = .next t → s.mem.wf = true → s.isExternal s.pc = false → (s.resolve o).1 = s.pc → s.halted = false →
    step t = .next u → u.accesses.head? = some { kind := .read, addr := s.pc, value := s.reg r }

/-! ### Addressing modes -/

/-- R73 to R78: the modes that read no pointer. The effective address, as a number, and no access made. -/
def Obligations.DirectModesResolve : Prop :=
  ∀ (s : State) (b : Byte) (a : Address),
    (∃ e : Address, s.resolve (.zp b) = (e, s) ∧ e.toNat = b.toNat) ∧
    (∃ e : Address, s.resolve (.zpx b) = (e, s) ∧ e.toNat = (b.toNat + s.x.toNat) % 256) ∧
    (∃ e : Address, s.resolve (.zpy b) = (e, s) ∧ e.toNat = (b.toNat + s.y.toNat) % 256) ∧
    s.resolve (.abs a) = (a, s) ∧
    (∃ e : Address, s.resolve (.abx a) = (e, s) ∧ e.toNat = (a.toNat + s.x.toNat) % 65536) ∧
    (∃ e : Address, s.resolve (.aby a) = (e, s) ∧ e.toNat = (a.toNat + s.y.toNat) % 65536)

/-- R80, R81: the modes that read a pointer in the zero page, low byte at `p`, high byte at `p + 1` within the zero page;
`X` is added before, `Y` after. -/
def Obligations.PointerModesResolve : Prop :=
  ∀ (s : State) (b : Byte),
    (∃ p q e : Address, p.toNat = (b.toNat + s.x.toNat) % 256 ∧ q.toNat = (p.toNat + 1) % 256 ∧
      e.toNat = (s.answer 1 q).toNat * 256 + (s.answer 0 p).toNat ∧
      s.resolve (.izx b) = (e, readAt (readAt s p) q)) ∧
    (∃ p q e : Address, p.toNat = b.toNat ∧ q.toNat = (p.toNat + 1) % 256 ∧
      e.toNat = ((s.answer 1 q).toNat * 256 + (s.answer 0 p).toNat + s.y.toNat) % 65536 ∧
      s.resolve (.izy b) = (e, readAt (readAt s p) q))

/-- R83: `LoadOperand` reads the byte at the effective address once. The immediate byte is the operand itself; that its
read is the fetch's read of the operand byte is the model's reading (log entry 8). -/
def Obligations.LoadOperandReadsOnce : Prop :=
  ∀ s : State,
    (∀ v : Byte, s.loadOperand (.immediate v) = (v, s)) ∧
    ∀ o : MemOperand, s.loadOperand (.memory o) =
      ((s.resolve o).2.answer 0 (s.resolve o).1, readAt (s.resolve o).2 (s.resolve o).1)

/-! ### Loads, stores, transfers -/

/-- R90 to R92: LDA, LDX, LDY put the operand in the register and set `Z` and `N` from it; nothing else changes. -/
def Obligations.LoadsSetRegisterAndZN : Prop :=
  (∀ (i : Instr) (s : State), i.mnemonic = .lda → ∃ src m t, i.operand.source? = some src ∧
    s.loadOperand src = (m, t) ∧ exec i s = .next { t with a := m, flags := withZN s.flags m }) ∧
  (∀ (i : Instr) (s : State), i.mnemonic = .ldx → ∃ src m t, i.operand.source? = some src ∧
    s.loadOperand src = (m, t) ∧ exec i s = .next { t with x := m, flags := withZN s.flags m }) ∧
  (∀ (i : Instr) (s : State), i.mnemonic = .ldy → ∃ src m t, i.operand.source? = some src ∧
    s.loadOperand src = (m, t) ∧ exec i s = .next { t with y := m, flags := withZN s.flags m }) ∧
  EncodedAs .lda [(.imm, 0xA9), (.zp, 0xA5), (.zpx, 0xB5), (.abs, 0xAD), (.abx, 0xBD), (.aby, 0xB9), (.izx, 0xA1), (.izy, 0xB1)] ∧
  EncodedAs .ldx [(.imm, 0xA2), (.zp, 0xA6), (.zpy, 0xB6), (.abs, 0xAE), (.aby, 0xBE)] ∧
  EncodedAs .ldy [(.imm, 0xA0), (.zp, 0xA4), (.zpx, 0xB4), (.abs, 0xAC), (.abx, 0xBC)]

/-- R93 to R95: STA, STX, STY write the register at the effective address, which they do not read; no register and no
flag changes. -/
def Obligations.StoresWriteRegister : Prop :=
  (∀ (i : Instr) (s : State), i.mnemonic = .sta → ∃ o ea t, i.operand = .memory o ∧ s.resolve o = (ea, t) ∧
    exec i s = .next (written t ea s.a)) ∧
  (∀ (i : Instr) (s : State), i.mnemonic = .stx → ∃ o ea t, i.operand = .memory o ∧ s.resolve o = (ea, t) ∧
    exec i s = .next (written t ea s.x)) ∧
  (∀ (i : Instr) (s : State), i.mnemonic = .sty → ∃ o ea t, i.operand = .memory o ∧ s.resolve o = (ea, t) ∧
    exec i s = .next (written t ea s.y)) ∧
  EncodedAs .sta [(.zp, 0x85), (.zpx, 0x95), (.abs, 0x8D), (.abx, 0x9D), (.aby, 0x99), (.izx, 0x81), (.izy, 0x91)] ∧
  EncodedAs .stx [(.zp, 0x86), (.zpy, 0x96), (.abs, 0x8E)] ∧
  EncodedAs .sty [(.zp, 0x84), (.zpx, 0x94), (.abs, 0x8C)]

/-- R96 to R101: the six transfers. TXS alone leaves the flags. -/
def Obligations.TransfersCopyRegister : Prop :=
  (∀ s : State, exec .tax s = .next { s with x := s.a, flags := withZN s.flags s.a }) ∧
  (∀ s : State, exec .tay s = .next { s with y := s.a, flags := withZN s.flags s.a }) ∧
  (∀ s : State, exec .txa s = .next { s with a := s.x, flags := withZN s.flags s.x }) ∧
  (∀ s : State, exec .tya s = .next { s with a := s.y, flags := withZN s.flags s.y }) ∧
  (∀ s : State, exec .tsx s = .next { s with x := s.sp, flags := withZN s.flags s.sp }) ∧
  (∀ s : State, exec .txs s = .next { s with sp := s.x }) ∧
  EncodedAs .tax [(.imp, 0xAA)] ∧
  EncodedAs .tay [(.imp, 0xA8)] ∧
  EncodedAs .txa [(.imp, 0x8A)] ∧
  EncodedAs .tya [(.imp, 0x98)] ∧
  EncodedAs .tsx [(.imp, 0xBA)] ∧
  EncodedAs .txs [(.imp, 0x9A)]

/-! ### Arithmetic and compare -/

/-- R111, R112, R117: ADC and SBC. The 9-bit sum of `A`, the operand (complemented for SBC) and `C`; its low 8 bits go to
`A`, bit 8 to `C`, the signed overflow to `V`, and `Z` and `N` follow the result, whatever `D` holds. -/
def Obligations.AddAndSubtractWithCarry : Prop :=
  (∀ (i : Instr) (s : State), i.mnemonic = .adc → ∃ src m t, i.operand.source? = some src ∧
    s.loadOperand src = (m, t) ∧
    ∃ (sum : Nat) (r : Byte), sum = s.a.toNat + m.toNat + s.flags.c.toNat ∧ r.toNat = sum % 256 ∧
      exec i s = .next { t with
        a := r
        flags := withZN { s.flags with
          c := decide (sum > 255)
          v := decide (s.a.getLsbD 7 = m.getLsbD 7 ∧ r.getLsbD 7 ≠ s.a.getLsbD 7) } r }) ∧
  (∀ (i : Instr) (s : State), i.mnemonic = .sbc → ∃ src m t, i.operand.source? = some src ∧
    s.loadOperand src = (m, t) ∧
    ∃ (sum : Nat) (n r : Byte), n = m ^^^ 0xFF ∧ sum = s.a.toNat + n.toNat + s.flags.c.toNat ∧ r.toNat = sum % 256 ∧
      exec i s = .next { t with
        a := r
        flags := withZN { s.flags with
          c := decide (sum > 255)
          v := decide (s.a.getLsbD 7 = n.getLsbD 7 ∧ r.getLsbD 7 ≠ s.a.getLsbD 7) } r }) ∧
  EncodedAs .adc [(.imm, 0x69), (.zp, 0x65), (.zpx, 0x75), (.abs, 0x6D), (.abx, 0x7D), (.aby, 0x79), (.izx, 0x61), (.izy, 0x71)] ∧
  EncodedAs .sbc [(.imm, 0xE9), (.zp, 0xE5), (.zpx, 0xF5), (.abs, 0xED), (.abx, 0xFD), (.aby, 0xF9), (.izx, 0xE1), (.izy, 0xF1)]

/-- R110: the adder. Its result and carry are the 9-bit sum, and it overflows exactly when the signed sum lies outside
-128 to 127. The spec marks the signed form as its own inference from the definition. -/
def Obligations.AdderOverflowIsSignedRange : Prop :=
  ∀ (a m : Byte) (c : Bool),
    (adc8 a m c).r.toNat + 256 * (adc8 a m c).carry.toNat = a.toNat + m.toNat + c.toNat ∧
    (adc8 a m c).overflow = (decide (a.getLsbD 7 = m.getLsbD 7) && decide ((adc8 a m c).r.getLsbD 7 ≠ a.getLsbD 7)) ∧
    ((adc8 a m c).overflow = true ↔
      a.toInt + m.toInt + (c.toNat : Int) < -128 ∨ 127 < a.toInt + m.toInt + (c.toNat : Int))

/-- R112: what SBC computes, as a difference. The result is `A - m - (1 - C)` modulo 256, `C` after says that no borrow
occurred, and `V` that the signed difference lies outside -128 to 127. The spec marks this as its own inference. -/
def Obligations.SubtractionIsBorrowArithmetic : Prop :=
  ∀ (a m : Byte) (c : Bool),
    (adc8 a (m ^^^ 0xFF) c).r = a - m - BitVec.ofNat 8 (1 - c.toNat) ∧
    ((adc8 a (m ^^^ 0xFF) c).carry = true ↔ m.toNat + (1 - c.toNat) ≤ a.toNat) ∧
    ((adc8 a (m ^^^ 0xFF) c).overflow = true ↔
      a.toInt - m.toInt - (1 - (c.toNat : Int)) < -128 ∨ 127 < a.toInt - m.toInt - (1 - (c.toNat : Int)))

/-- R113 to R116: the compares set `C`, `Z`, `N` from the register and the operand, and change nothing else. -/
def Obligations.ComparesSetCarryZeroNegative : Prop :=
  (∀ (i : Instr) (s : State), i.mnemonic = .cmp → ∃ src m t, i.operand.source? = some src ∧
    s.loadOperand src = (m, t) ∧ exec i s = .next { t with flags := { s.flags with
      c := decide (s.a.toNat ≥ m.toNat), z := decide (s.a = m)
      n := decide ((s.a.toNat + 256 - m.toNat) % 256 ≥ 128) } }) ∧
  (∀ (i : Instr) (s : State), i.mnemonic = .cpx → ∃ src m t, i.operand.source? = some src ∧
    s.loadOperand src = (m, t) ∧ exec i s = .next { t with flags := { s.flags with
      c := decide (s.x.toNat ≥ m.toNat), z := decide (s.x = m)
      n := decide ((s.x.toNat + 256 - m.toNat) % 256 ≥ 128) } }) ∧
  (∀ (i : Instr) (s : State), i.mnemonic = .cpy → ∃ src m t, i.operand.source? = some src ∧
    s.loadOperand src = (m, t) ∧ exec i s = .next { t with flags := { s.flags with
      c := decide (s.y.toNat ≥ m.toNat), z := decide (s.y = m)
      n := decide ((s.y.toNat + 256 - m.toNat) % 256 ≥ 128) } }) ∧
  EncodedAs .cmp [(.imm, 0xC9), (.zp, 0xC5), (.zpx, 0xD5), (.abs, 0xCD), (.abx, 0xDD), (.aby, 0xD9), (.izx, 0xC1), (.izy, 0xD1)] ∧
  EncodedAs .cpx [(.imm, 0xE0), (.zp, 0xE4), (.abs, 0xEC)] ∧
  EncodedAs .cpy [(.imm, 0xC0), (.zp, 0xC4), (.abs, 0xCC)]

/-! ### Logical, shift, rotate -/

/-- R120 to R122: AND, ORA, EOR combine `A` with the operand bit by bit and set `Z` and `N` from the new `A`. -/
def Obligations.LogicalCombinesBits : Prop :=
  (∀ (i : Instr) (s : State), i.mnemonic = .and → ∃ src m t r, i.operand.source? = some src ∧
    s.loadOperand src = (m, t) ∧ (∀ k : Nat, r.getLsbD k = (s.a.getLsbD k && m.getLsbD k)) ∧
    exec i s = .next { t with a := r, flags := withZN s.flags r }) ∧
  (∀ (i : Instr) (s : State), i.mnemonic = .ora → ∃ src m t r, i.operand.source? = some src ∧
    s.loadOperand src = (m, t) ∧ (∀ k : Nat, r.getLsbD k = (s.a.getLsbD k || m.getLsbD k)) ∧
    exec i s = .next { t with a := r, flags := withZN s.flags r }) ∧
  (∀ (i : Instr) (s : State), i.mnemonic = .eor → ∃ src m t r, i.operand.source? = some src ∧
    s.loadOperand src = (m, t) ∧ (∀ k : Nat, r.getLsbD k = (s.a.getLsbD k != m.getLsbD k)) ∧
    exec i s = .next { t with a := r, flags := withZN s.flags r }) ∧
  EncodedAs .and [(.imm, 0x29), (.zp, 0x25), (.zpx, 0x35), (.abs, 0x2D), (.abx, 0x3D), (.aby, 0x39), (.izx, 0x21), (.izy, 0x31)] ∧
  EncodedAs .ora [(.imm, 0x09), (.zp, 0x05), (.zpx, 0x15), (.abs, 0x0D), (.abx, 0x1D), (.aby, 0x19), (.izx, 0x01), (.izy, 0x11)] ∧
  EncodedAs .eor [(.imm, 0x49), (.zp, 0x45), (.zpx, 0x55), (.abs, 0x4D), (.abx, 0x5D), (.aby, 0x59), (.izx, 0x41), (.izy, 0x51)]

/-- R123, R124, R127: ASL and LSR shift `A` or the byte at the effective address by one bit. `C` receives the bit shifted
out, the vacated bit is 0, `Z` and `N` follow the result. The accumulator form touches no memory; the memory forms read
the byte once, write the result there once, and leave `A`. -/
def Obligations.ShiftsMoveOneBit : Prop :=
  (∀ s : State, ∃ r : Byte, r.toNat = s.a.toNat * 2 % 256 ∧ exec .aslAcc s = .next { s with
    a := r, flags := withZN { s.flags with c := decide (s.a.toNat ≥ 128) } r }) ∧
  (∀ (i : Instr) (s : State) (o : MemOperand), i.mnemonic = .asl → i.operand = .memory o →
    ∃ ea t v, ∃ r : Byte, s.resolve o = (ea, t) ∧ v = t.answer 0 ea ∧ r.toNat = v.toNat * 2 % 256 ∧
      exec i s = .next { written (readAt t ea) ea r with flags := withZN { s.flags with c := decide (v.toNat ≥ 128) } r }) ∧
  (∀ s : State, ∃ r : Byte, r.toNat = s.a.toNat / 2 ∧ exec .lsrAcc s = .next { s with
    a := r, flags := withZN { s.flags with c := decide (s.a.toNat % 2 = 1) } r }) ∧
  (∀ (i : Instr) (s : State) (o : MemOperand), i.mnemonic = .lsr → i.operand = .memory o →
    ∃ ea t v, ∃ r : Byte, s.resolve o = (ea, t) ∧ v = t.answer 0 ea ∧ r.toNat = v.toNat / 2 ∧
      exec i s = .next { written (readAt t ea) ea r with flags := withZN { s.flags with c := decide (v.toNat % 2 = 1) } r }) ∧
  EncodedAs .asl [(.zp, 0x06), (.zpx, 0x16), (.abs, 0x0E), (.abx, 0x1E), (.acc, 0x0A)] ∧
  EncodedAs .lsr [(.zp, 0x46), (.zpx, 0x56), (.abs, 0x4E), (.abx, 0x5E), (.acc, 0x4A)]

/-- R125 to R127: ROL and ROR rotate `A` or the byte at the effective address by one bit through `C`: the vacated bit
receives the incoming `C`, `C` receives the bit shifted out, `Z` and `N` follow the result. The accumulator form touches
no memory; the memory forms read the byte once, write the result there once, and leave `A`. -/
def Obligations.RotatesMoveThroughCarry : Prop :=
  (∀ s : State, ∃ r : Byte, r.toNat = s.a.toNat * 2 % 256 + s.flags.c.toNat ∧ exec .rolAcc s = .next { s with
    a := r, flags := withZN { s.flags with c := decide (s.a.toNat ≥ 128) } r }) ∧
  (∀ (i : Instr) (s : State) (o : MemOperand), i.mnemonic = .rol → i.operand = .memory o →
    ∃ ea t v, ∃ r : Byte, s.resolve o = (ea, t) ∧ v = t.answer 0 ea ∧ r.toNat = v.toNat * 2 % 256 + s.flags.c.toNat ∧
      exec i s = .next { written (readAt t ea) ea r with flags := withZN { s.flags with c := decide (v.toNat ≥ 128) } r }) ∧
  (∀ s : State, ∃ r : Byte, r.toNat = s.a.toNat / 2 + 128 * s.flags.c.toNat ∧ exec .rorAcc s = .next { s with
    a := r, flags := withZN { s.flags with c := decide (s.a.toNat % 2 = 1) } r }) ∧
  (∀ (i : Instr) (s : State) (o : MemOperand), i.mnemonic = .ror → i.operand = .memory o →
    ∃ ea t v, ∃ r : Byte, s.resolve o = (ea, t) ∧ v = t.answer 0 ea ∧ r.toNat = v.toNat / 2 + 128 * s.flags.c.toNat ∧
      exec i s = .next { written (readAt t ea) ea r with flags := withZN { s.flags with c := decide (v.toNat % 2 = 1) } r }) ∧
  EncodedAs .rol [(.zp, 0x26), (.zpx, 0x36), (.abs, 0x2E), (.abx, 0x3E), (.acc, 0x2A)] ∧
  EncodedAs .ror [(.zp, 0x66), (.zpx, 0x76), (.abs, 0x6E), (.abx, 0x7E), (.acc, 0x6A)]

/-! ### Increment, decrement, bit test -/

/-- R130, R131: INC and DEC read the byte at the effective address, write it plus or minus one modulo 256 there, and set
`Z` and `N` from the result; `C`, `V` and the registers are unchanged. -/
def Obligations.MemoryIncrementAndDecrement : Prop :=
  (∀ (i : Instr) (s : State), i.mnemonic = .inc → ∃ o ea t, ∃ r : Byte, i.operand = .memory o ∧
    s.resolve o = (ea, t) ∧ r.toNat = ((t.answer 0 ea).toNat + 1) % 256 ∧
    exec i s = .next { written (readAt t ea) ea r with flags := withZN s.flags r }) ∧
  (∀ (i : Instr) (s : State), i.mnemonic = .dec → ∃ o ea t, ∃ r : Byte, i.operand = .memory o ∧
    s.resolve o = (ea, t) ∧ r.toNat = ((t.answer 0 ea).toNat + 255) % 256 ∧
    exec i s = .next { written (readAt t ea) ea r with flags := withZN s.flags r }) ∧
  EncodedAs .inc [(.zp, 0xE6), (.zpx, 0xF6), (.abs, 0xEE), (.abx, 0xFE)] ∧
  EncodedAs .dec [(.zp, 0xC6), (.zpx, 0xD6), (.abs, 0xCE), (.abx, 0xDE)]

/-- R132 to R135: INX, INY, DEX, DEY wrap modulo 256 and set `Z` and `N`; `C` and `V` are unchanged. -/
def Obligations.RegisterIncrementAndDecrement : Prop :=
  (∀ s : State, ∃ r : Byte, r.toNat = (s.x.toNat + 1) % 256 ∧
    exec .inx s = .next { s with x := r, flags := withZN s.flags r }) ∧
  (∀ s : State, ∃ r : Byte, r.toNat = (s.y.toNat + 1) % 256 ∧
    exec .iny s = .next { s with y := r, flags := withZN s.flags r }) ∧
  (∀ s : State, ∃ r : Byte, r.toNat = (s.x.toNat + 255) % 256 ∧
    exec .dex s = .next { s with x := r, flags := withZN s.flags r }) ∧
  (∀ s : State, ∃ r : Byte, r.toNat = (s.y.toNat + 255) % 256 ∧
    exec .dey s = .next { s with y := r, flags := withZN s.flags r }) ∧
  EncodedAs .inx [(.imp, 0xE8)] ∧
  EncodedAs .iny [(.imp, 0xC8)] ∧
  EncodedAs .dex [(.imp, 0xCA)] ∧
  EncodedAs .dey [(.imp, 0x88)]

/-- R136: BIT sets `Z` from `A & m`, `N` and `V` from bits 7 and 6 of the operand itself; `A` and the other flags are
unchanged. -/
def Obligations.BitTestsOperand : Prop :=
  (∀ (i : Instr) (s : State), i.mnemonic = .bit → ∃ src m t, i.operand.source? = some src ∧
    s.loadOperand src = (m, t) ∧ exec i s = .next { t with flags := { s.flags with
      z := decide (s.a &&& m = 0x00), n := m.getLsbD 7, v := m.getLsbD 6 } }) ∧
  EncodedAs .bit [(.zp, 0x24), (.abs, 0x2C)]

/-! ### Control transfer -/

/-- R82, R140 to R148: the eight branches. `PC`, which is after the branch, moves by the signed displacement modulo 65536
if the condition holds, and stays otherwise; nothing else changes. -/
def Obligations.BranchesMovePcOnCondition : Prop :=
  (∀ (s : State) (d : Byte), ∃ target : Address, (target.toNat : Int) = ((s.pc.toNat : Int) + d.toInt) % 65536 ∧
    exec (.bcc d) s = .next { s with pc := if s.flags.c = false then target else s.pc } ∧
    exec (.bcs d) s = .next { s with pc := if s.flags.c = true then target else s.pc } ∧
    exec (.beq d) s = .next { s with pc := if s.flags.z = true then target else s.pc } ∧
    exec (.bne d) s = .next { s with pc := if s.flags.z = false then target else s.pc } ∧
    exec (.bmi d) s = .next { s with pc := if s.flags.n = true then target else s.pc } ∧
    exec (.bpl d) s = .next { s with pc := if s.flags.n = false then target else s.pc } ∧
    exec (.bvc d) s = .next { s with pc := if s.flags.v = false then target else s.pc } ∧
    exec (.bvs d) s = .next { s with pc := if s.flags.v = true then target else s.pc }) ∧
  EncodedAs .bcc [(.rel, 0x90)] ∧
  EncodedAs .bcs [(.rel, 0xB0)] ∧
  EncodedAs .beq [(.rel, 0xF0)] ∧
  EncodedAs .bne [(.rel, 0xD0)] ∧
  EncodedAs .bmi [(.rel, 0x30)] ∧
  EncodedAs .bpl [(.rel, 0x10)] ∧
  EncodedAs .bvc [(.rel, 0x50)] ∧
  EncodedAs .bvs [(.rel, 0x70)]

/-- R79, R149: JMP. The absolute form sets `PC` to the operand; the indirect form reads the target's low byte at the
pointer and its high byte at the next address of the same page. -/
def Obligations.JumpsSetPc : Prop :=
  (∀ (s : State) (a : Address), exec (.jmpAbs a) s = .next { s with pc := a }) ∧
  (∀ (s : State) (p : Address), ∃ q target : Address,
    q.toNat = (if p.toNat % 256 = 255 then p.toNat - 255 else p.toNat + 1) ∧
    target.toNat = (s.answer 1 q).toNat * 256 + (s.answer 0 p).toNat ∧
    exec (.jmpInd p) s = .next { readAt (readAt s p) q with pc := target }) ∧
  EncodedAs .jmp [(.abs, 0x4C), (.ind, 0x6C)]

/-- R150: JSR pushes the high byte, then the low byte, of the address of its own last byte, and sets `PC` to the
target. -/
def Obligations.JsrPushesReturnAddress : Prop :=
  (∀ (s : State) (a : Address), ∃ hi lo : Byte,
    hi.toNat * 256 + lo.toNat = (s.pc.toNat + 65535) % 65536 ∧
    exec (.jsr a) s = .next { written (written s (stackAt s.sp) hi) (stackAt (s.sp - 1)) lo with
      sp := s.sp - 2, pc := a }) ∧
  EncodedAs .jsr [(.abs, 0x20)]

/-- R151: RTS pulls the low byte, then the high byte, and sets `PC` to their word plus one modulo 65536. -/
def Obligations.RtsReturnsPastPulledAddress : Prop :=
  (∀ s : State, ∃ target : Address,
    target.toNat = ((s.answer 1 (stackAt (s.sp + 2))).toNat * 256 + (s.answer 0 (stackAt (s.sp + 1))).toNat + 1)
      % 65536 ∧
    exec .rts s = .next { readAt (readAt s (stackAt (s.sp + 1))) (stackAt (s.sp + 2)) with
      sp := s.sp + 2, pc := target }) ∧
  EncodedAs .rts [(.imp, 0x60)]

/-- R150, R151: the round trip. An RTS after a JSR, with the stack and memory as the JSR left them, returns to the
instruction after the JSR with `SP` restored, wherever the stack pointer stood. -/
def Obligations.RtsReturnsToJsrSuccessor : Prop :=
  ∀ (s t u : State) (a p : Address), s.mem.wf = true → (∀ sp : Byte, s.isExternal (stackAt sp) = false) →
    exec (.jsr a) s = .next t → exec .rts (t.setPc p) = .next u → u.pc = s.pc ∧ u.sp = s.sp ∧ u.flags = s.flags

/-! ### Stack, status, no-operation -/

/-- R14 to R16: the stack lies in page 0x01. A push writes, then decrements `SP`; a pull increments `SP`, then reads; both
wrap. -/
def Obligations.PushAndPullInPageOne : Prop :=
  (∀ sp : Byte, (stackAt sp).toNat = 256 + sp.toNat) ∧
  (∀ (s : State) (v : Byte), s.push v = { written s (stackAt s.sp) v with sp := s.sp - 1 } ∧
    (s.push v).sp.toNat = (s.sp.toNat + 255) % 256) ∧
  ∀ s : State, s.pull = (s.answer 0 (stackAt (s.sp + 1)), { readAt s (stackAt (s.sp + 1)) with sp := s.sp + 1 }) ∧
    s.pull.2.sp.toNat = (s.sp.toNat + 1) % 256

/-- R160, R161: PHA pushes `A` and changes no flag; PLA pulls `A` and sets `Z` and `N` from it. -/
def Obligations.PushAndPullAccumulator : Prop :=
  (∀ s : State, exec .pha s = .next { written s (stackAt s.sp) s.a with sp := s.sp - 1 }) ∧
  (∀ s : State, ∃ m : Byte, m = s.answer 0 (stackAt (s.sp + 1)) ∧
    exec .pla s = .next { readAt s (stackAt (s.sp + 1)) with
      sp := s.sp + 1, a := m, flags := withZN s.flags m }) ∧
  EncodedAs .pha [(.imp, 0x48)] ∧
  EncodedAs .pla [(.imp, 0x68)]

/-- R162, R163: PHP pushes `N:V:1:1:D:I:Z:C` and changes no flag; PLP loads all seven live flags from the pulled byte and
ignores bit 5. -/
def Obligations.PushAndPullStatus : Prop :=
  (∀ s : State, ∃ m : Byte,
    m.toNat = 128 * s.flags.n.toNat + 64 * s.flags.v.toNat + 32 + 16 + 8 * s.flags.d.toNat + 4 * s.flags.i.toNat +
      2 * s.flags.z.toNat + s.flags.c.toNat ∧
    exec .php s = .next { written s (stackAt s.sp) m with sp := s.sp - 1 }) ∧
  (∀ s : State, ∃ m : Byte, m = s.answer 0 (stackAt (s.sp + 1)) ∧
    exec .plp s = .next { readAt s (stackAt (s.sp + 1)) with
      sp := s.sp + 1
      flags := { c := m.getLsbD 0, z := m.getLsbD 1, i := m.getLsbD 2, d := m.getLsbD 3, b := m.getLsbD 4
                 v := m.getLsbD 6, n := m.getLsbD 7 } }) ∧
  EncodedAs .php [(.imp, 0x08)] ∧
  EncodedAs .plp [(.imp, 0x28)]

/-- R162, R163, 90 C1: PLP after PHP restores `SP` and every flag but `B`, which becomes 1. -/
def Obligations.PlpAfterPhpSetsBreak : Prop :=
  ∀ s t u : State, s.mem.wf = true → s.isExternal (stackAt s.sp) = false →
    exec .php s = .next t → exec .plp t = .next u → u.flags = { s.flags with b := true } ∧ u.sp = s.sp

/-- R164: NOP has no effect beyond its fetch, and 0xEA is its only byte. -/
def Obligations.NopHasNoEffect : Prop :=
  (∀ s : State, exec .nop s = .next s) ∧
  EncodedAs .nop [(.imp, 0xEA)]

/-- R170 to R176: each flag instruction writes its one flag and nothing else. -/
def Obligations.FlagInstructionsWriteOneFlag : Prop :=
  (∀ s : State, exec .clc s = .next { s with flags := { s.flags with c := false } }) ∧
  (∀ s : State, exec .sec s = .next { s with flags := { s.flags with c := true } }) ∧
  (∀ s : State, exec .cli s = .next { s with flags := { s.flags with i := false } }) ∧
  (∀ s : State, exec .sei s = .next { s with flags := { s.flags with i := true } }) ∧
  (∀ s : State, exec .clv s = .next { s with flags := { s.flags with v := false } }) ∧
  (∀ s : State, exec .cld s = .next { s with flags := { s.flags with d := false } }) ∧
  (∀ s : State, exec .sed s = .next { s with flags := { s.flags with d := true } }) ∧
  EncodedAs .clc [(.imp, 0x18)] ∧
  EncodedAs .sec [(.imp, 0x38)] ∧
  EncodedAs .cli [(.imp, 0x58)] ∧
  EncodedAs .sei [(.imp, 0x78)] ∧
  EncodedAs .clv [(.imp, 0xB8)] ∧
  EncodedAs .cld [(.imp, 0xD8)] ∧
  EncodedAs .sed [(.imp, 0xF8)]

/-! ### The status byte, reset and the host's ports -/

/-- R17 to R19, R26: the status byte. Its value, its round trip with bit 5 forced to 1, and the two host ports to it. -/
def Obligations.StatusBytePacksLiveFlags : Prop :=
  (∀ f : Flags, f.pack.toNat = f.n.toNat * 128 + f.v.toNat * 64 + 32 + f.b.toNat * 16 + f.d.toNat * 8 +
    f.i.toNat * 4 + f.z.toNat * 2 + f.c.toNat) ∧
  (∀ b : Byte, (Flags.unpack b).pack = b ||| 0x20) ∧
  (∀ f : Flags, Flags.unpack f.pack = f) ∧
  (∀ (s : State) (b : Byte), s.setProcessorStatus b = { s with flags :=
    { c := b.getLsbD 0, z := b.getLsbD 1, i := b.getLsbD 2, d := b.getLsbD 3, b := b.getLsbD 4
      v := b.getLsbD 6, n := b.getLsbD 7 } }) ∧
  ∀ (s : State) (b : Byte), (s.setProcessorStatus b).processorStatus = b ||| 0x20

/-- R200, R203: `Reset` gives every register, flag and latch its value, sets `PC` to its argument, and leaves memory. That
the model's list of accesses is emptied is its own choice (log entry 5). -/
def Obligations.ResetSetsEveryRegister : Prop :=
  ∀ (s : State) (p : Address), s.hostReset p = { s with
    a := 0x00, x := 0x00, y := 0x00, sp := 0xFF
    flags := { c := false, z := false, i := false, d := false, b := false, v := false, n := false }
    pc := p, halted := false, faultOpcode := 0x00, faultPc := 0x0000, accesses := [] } ∧
    (s.hostReset p).processorStatus = 0x20

/-! ### Frames -/

/-- The register frame over all instructions (the table of R11; R13, R14): an instruction that is not listed as writing
a register leaves it. -/
def Obligations.UnlistedRegistersUnchanged : Prop :=
  ∀ (i : Instr) (s t : State), exec i s = .next t →
    (i.mnemonic ∉ [.lda, .txa, .tya, .pla, .adc, .sbc, .and, .ora, .eor] → i.mode ≠ .acc → t.a = s.a) ∧
    (i.mnemonic ∉ [.ldx, .tax, .tsx, .inx, .dex] → t.x = s.x) ∧
    (i.mnemonic ∉ [.ldy, .tay, .iny, .dey] → t.y = s.y) ∧
    (i.mnemonic ∉ [.txs, .pha, .php, .pla, .plp, .jsr, .rts] → t.sp = s.sp) ∧
    (i.mnemonic ∉ transfers → t.pc = s.pc)

/-- The flag frame over all instructions (the table of R20): an instruction that is not listed as writing a flag leaves
it. -/
def Obligations.UnlistedFlagsUnchanged : Prop :=
  ∀ (i : Instr) (s t : State), exec i s = .next t →
    (i.mnemonic ∉ [.adc, .sbc, .cmp, .cpx, .cpy, .asl, .lsr, .rol, .ror, .clc, .sec, .plp] →
      t.flags.c = s.flags.c) ∧
    (i.mnemonic ∉ [.lda, .ldx, .ldy, .tax, .tay, .txa, .tya, .tsx, .pla, .adc, .sbc, .cmp, .cpx, .cpy, .and, .ora,
        .eor, .asl, .lsr, .rol, .ror, .inc, .dec, .inx, .iny, .dex, .dey, .bit, .plp] →
      t.flags.z = s.flags.z ∧ t.flags.n = s.flags.n) ∧
    (i.mnemonic ∉ [.cli, .sei, .plp] → t.flags.i = s.flags.i) ∧
    (i.mnemonic ∉ [.cld, .sed, .plp] → t.flags.d = s.flags.d) ∧
    (i.mnemonic ≠ .plp → t.flags.b = s.flags.b) ∧
    (i.mnemonic ∉ [.adc, .sbc, .bit, .clv, .plp] → t.flags.v = s.flags.v)

/-- The memory frame of the forms that store nothing (R37): every instruction but the stores, the read-modify-writes in
memory, the pushes and JSR leaves every byte of memory. -/
def Obligations.NonStoringFormsLeaveMemory : Prop :=
  ∀ (i : Instr) (s t : State), exec i s = .next t →
    i.mnemonic ∉ [.sta, .stx, .sty, .pha, .php, .jsr] → (i.mnemonic ∈ rmw → i.mode = .acc) →
    (∀ q : Address, t.byteAt q = s.byteAt q) ∧ t.mem = s.mem

/-- The memory frame of the stores and read-modify-writes (R37, R93 to R95, R127, R130, R131): every byte but the one at
the effective address is unchanged. -/
def Obligations.StoringFormsLeaveOtherBytes : Prop :=
  ∀ (i : Instr) (s t : State) (o : MemOperand), exec i s = .next t →
    i.mnemonic ∈ [.sta, .stx, .sty] ∨ i.mnemonic ∈ rmw → i.operand = .memory o →
    ∀ q : Address, q ≠ (s.resolve o).1 → t.byteAt q = s.byteAt q

/-- The memory frame of the pushes and JSR (R15, R150, R160, R162): every byte but the one or two pushed is
unchanged. -/
def Obligations.PushingFormsLeaveOtherBytes : Prop :=
  ∀ (i : Instr) (s t : State), exec i s = .next t →
    (i.mnemonic ∈ [.pha, .php] → ∀ q : Address, q ≠ stackAt s.sp → t.byteAt q = s.byteAt q) ∧
    (i.mnemonic = .jsr → ∀ q : Address, q ≠ stackAt s.sp → q ≠ stackAt (s.sp - 1) → t.byteAt q = s.byteAt q)

/-- What the stores leave at the effective address (R93 to R95), with its bytes in storage and memory in canonical form,
which `StepKeepsInvariant` says of every state a run reaches. -/
def Obligations.StoredByteIsTheRegister : Prop :=
  ∀ (i : Instr) (s t : State) (o : MemOperand), exec i s = .next t → i.operand = .memory o →
    s.mem.wf = true → s.isExternal (s.resolve o).1 = false →
    (i.mnemonic = .sta → t.byteAt (s.resolve o).1 = s.a) ∧ (i.mnemonic = .stx → t.byteAt (s.resolve o).1 = s.x) ∧
    (i.mnemonic = .sty → t.byteAt (s.resolve o).1 = s.y)
end

