-- ==== Sys2Proof/Laws/Memory.lean ====
section
/-! SUPPORT. The laws of the storage: read after write, and the canonical form, which every operation on memory
keeps. -/

namespace Sys2Proof.Machine

/-- Below the first address of a canonical list nothing is listed. -/
theorem Memory.get_of_lt_wfFrom {m : Memory} {lo a : Nat} (h : m.wfFrom lo = true) (ha : a < lo) :
    m.get a = Config.unlistedByte := by
  induction m generalizing lo with
  | nil => rfl
  | cons e rest ih =>
    obtain ⟨k, w⟩ := e
    simp only [Memory.wfFrom, Bool.and_eq_true, decide_eq_true_eq] at h
    have hk : k ≠ a := by omega
    simpa [Memory.get, hk] using ih h.2 (by omega)

/-- A list canonical from a later address is canonical from an earlier one. -/
theorem Memory.wfFrom_mono {m : Memory} {lo lo' : Nat} (h : m.wfFrom lo' = true) (hle : lo ≤ lo') :
    m.wfFrom lo = true := by
  cases m with
  | nil => rfl
  | cons e rest =>
    obtain ⟨k, w⟩ := e
    simp only [Memory.wfFrom, Bool.and_eq_true, decide_eq_true_eq] at h ⊢
    exact ⟨⟨⟨by omega, h.1.1.2⟩, h.1.2⟩, h.2⟩

/-- Storing a byte keeps the canonical form. -/
theorem Memory.set_wfFrom {m : Memory} {lo a : Nat} (v : Byte) (h : m.wfFrom lo = true) (hlo : lo ≤ a)
    (ha : a < Config.memorySize) : (m.set a v).wfFrom lo = true := by
  induction m generalizing lo with
  | nil =>
    by_cases hv : v = Config.unlistedByte
    · simp [Memory.set, hv, Memory.wfFrom]
    · simp [Memory.set, hv, Memory.wfFrom, hlo, ha]
  | cons e rest ih =>
    obtain ⟨k, w⟩ := e
    have h' := h
    simp only [Memory.wfFrom, Bool.and_eq_true, decide_eq_true_eq] at h
    obtain ⟨⟨⟨hlk, hk⟩, hw⟩, hr⟩ := h
    rcases Nat.lt_trichotomy a k with hlt | heq | hgt
    · by_cases hv : v = Config.unlistedByte
      · simpa [Memory.set, hlt, hv] using h'
      · simp [Memory.set, hlt, hv, Memory.wfFrom, hlo, ha, hk, hw, hr, Nat.succ_le_of_lt hlt]
    · subst heq
      by_cases hv : v = Config.unlistedByte
      · simpa [Memory.set, hv] using Memory.wfFrom_mono hr (by omega : lo ≤ a + 1)
      · simp [Memory.set, hv, Memory.wfFrom, hlo, ha, hr]
    · have h1 : ¬a < k := by omega
      have h2 : ¬a = k := by omega
      simp [Memory.set, h1, h2, Memory.wfFrom, hlk, hk, hw, ih hr (by omega : k + 1 ≤ a)]

/-- Storing a byte of the address space keeps the canonical form of memory. -/
theorem Memory.set_wf {m : Memory} (a : Address) (v : Byte) (h : m.wf = true) : (m.set a.toNat v).wf = true :=
  Memory.set_wfFrom v h (Nat.zero_le _) a.isLt

/-- What a canonical list reads after a store: the byte stored at its address, and what it read before elsewhere. -/
theorem Memory.get_set_wfFrom {m : Memory} {lo a : Nat} (v : Byte) (b : Nat) (h : m.wfFrom lo = true) :
    (m.set a v).get b = if a = b then v else m.get b := by
  induction m generalizing lo with
  | nil =>
    by_cases hv : v = Config.unlistedByte <;> by_cases hab : a = b <;> simp [Memory.set, Memory.get, hv, hab]
  | cons e rest ih =>
    obtain ⟨k, w⟩ := e
    have h' := h
    simp only [Memory.wfFrom, Bool.and_eq_true, decide_eq_true_eq] at h
    obtain ⟨⟨⟨hlk, hk⟩, hw⟩, hr⟩ := h
    rcases Nat.lt_trichotomy a k with hlt | heq | hgt
    · by_cases hv : v = Config.unlistedByte
      · by_cases hab : a = b
        · subst hab
          have hka : k ≠ a := by omega
          simp [Memory.set, hlt, hv, Memory.get, hka, Memory.get_of_lt_wfFrom hr (by omega : a < k + 1)]
        · simp [Memory.set, hlt, hv, hab]
      · simp [Memory.set, hlt, hv, Memory.get]
    · subst heq
      by_cases hv : v = Config.unlistedByte
      · by_cases hab : a = b
        · subst hab
          simp [Memory.set, hv, Memory.get_of_lt_wfFrom hr (by omega : a < a + 1)]
        · simp [Memory.set, hv, hab, Memory.get]
      · by_cases hab : a = b <;> simp [Memory.set, hv, hab, Memory.get]
    · have h1 : ¬a < k := by omega
      have h2 : ¬a = k := by omega
      by_cases hkb : k = b
      · subst hkb
        simp [Memory.set, h1, h2, Memory.get]
      · simp [Memory.set, h1, h2, Memory.get, hkb, ih hr]

/-- Read after write on canonical memory. -/
theorem Memory.get_set {m : Memory} (h : m.wf = true) (a b : Nat) (v : Byte) :
    (m.set a v).get b = if a = b then v else m.get b :=
  Memory.get_set_wfFrom v b h

/-- A store leaves every other address alone, in any list. -/
theorem Memory.get_set_ne (m : Memory) {a b : Nat} (v : Byte) (hab : a ≠ b) : (m.set a v).get b = m.get b := by
  induction m with
  | nil => by_cases hv : v = Config.unlistedByte <;> simp [Memory.set, Memory.get, hv, hab]
  | cons e rest ih =>
    obtain ⟨k, w⟩ := e
    simp only [Memory.set]
    split_ifs with h1 h2 h3 h4 <;> simp_all [Memory.get]

/-- The memory of reset is in canonical form. -/
theorem reset_mem_wf : State.reset.mem.wf = true := rfl

end Sys2Proof.Machine
end

