-- ==== Sys2Proof/Laws/State.lean ====
section
/-! SUPPORT. One lemma per field per update: what each named update of the state leaves in each field. -/

namespace Sys2Proof.Machine

section SetReg
variable (s : State) (r : Reg) (v : Byte)

@[simp] theorem State.setReg_pc : (s.setReg r v).pc = s.pc := by cases r <;> rfl
@[simp] theorem State.setReg_flags : (s.setReg r v).flags = s.flags := by cases r <;> rfl
@[simp] theorem State.setReg_halted : (s.setReg r v).halted = s.halted := by cases r <;> rfl
@[simp] theorem State.setReg_faultOpcode : (s.setReg r v).faultOpcode = s.faultOpcode := by cases r <;> rfl
@[simp] theorem State.setReg_faultPc : (s.setReg r v).faultPc = s.faultPc := by cases r <;> rfl
@[simp] theorem State.setReg_mem : (s.setReg r v).mem = s.mem := by cases r <;> rfl
@[simp] theorem State.setReg_external : (s.setReg r v).external = s.external := by cases r <;> rfl
@[simp] theorem State.setReg_reads : (s.setReg r v).reads = s.reads := by cases r <;> rfl
@[simp] theorem State.setReg_accesses : (s.setReg r v).accesses = s.accesses := by cases r <;> rfl

end SetReg

section SetPc
variable (s : State) (t : Address)

@[simp] theorem State.setPc_a : (s.setPc t).a = s.a := rfl
@[simp] theorem State.setPc_x : (s.setPc t).x = s.x := rfl
@[simp] theorem State.setPc_y : (s.setPc t).y = s.y := rfl
@[simp] theorem State.setPc_sp : (s.setPc t).sp = s.sp := rfl
@[simp] theorem State.setPc_pc : (s.setPc t).pc = t := rfl
@[simp] theorem State.setPc_flags : (s.setPc t).flags = s.flags := rfl
@[simp] theorem State.setPc_halted : (s.setPc t).halted = s.halted := rfl
@[simp] theorem State.setPc_faultOpcode : (s.setPc t).faultOpcode = s.faultOpcode := rfl
@[simp] theorem State.setPc_faultPc : (s.setPc t).faultPc = s.faultPc := rfl
@[simp] theorem State.setPc_mem : (s.setPc t).mem = s.mem := rfl
@[simp] theorem State.setPc_external : (s.setPc t).external = s.external := rfl
@[simp] theorem State.setPc_reads : (s.setPc t).reads = s.reads := rfl
@[simp] theorem State.setPc_accesses : (s.setPc t).accesses = s.accesses := rfl

end SetPc

section SetFlags
variable (s : State) (f : Flags)

@[simp] theorem State.setFlags_a : (s.setFlags f).a = s.a := rfl
@[simp] theorem State.setFlags_x : (s.setFlags f).x = s.x := rfl
@[simp] theorem State.setFlags_y : (s.setFlags f).y = s.y := rfl
@[simp] theorem State.setFlags_sp : (s.setFlags f).sp = s.sp := rfl
@[simp] theorem State.setFlags_pc : (s.setFlags f).pc = s.pc := rfl
@[simp] theorem State.setFlags_flags : (s.setFlags f).flags = f := rfl
@[simp] theorem State.setFlags_halted : (s.setFlags f).halted = s.halted := rfl
@[simp] theorem State.setFlags_faultOpcode : (s.setFlags f).faultOpcode = s.faultOpcode := rfl
@[simp] theorem State.setFlags_faultPc : (s.setFlags f).faultPc = s.faultPc := rfl
@[simp] theorem State.setFlags_mem : (s.setFlags f).mem = s.mem := rfl
@[simp] theorem State.setFlags_external : (s.setFlags f).external = s.external := rfl
@[simp] theorem State.setFlags_reads : (s.setFlags f).reads = s.reads := rfl
@[simp] theorem State.setFlags_accesses : (s.setFlags f).accesses = s.accesses := rfl

end SetFlags

section SetZN
variable (s : State) (v : Byte)

@[simp] theorem State.setZN_a : (s.setZN v).a = s.a := rfl
@[simp] theorem State.setZN_x : (s.setZN v).x = s.x := rfl
@[simp] theorem State.setZN_y : (s.setZN v).y = s.y := rfl
@[simp] theorem State.setZN_sp : (s.setZN v).sp = s.sp := rfl
@[simp] theorem State.setZN_pc : (s.setZN v).pc = s.pc := rfl
@[simp] theorem State.setZN_flags : (s.setZN v).flags = s.flags.setZN v := rfl
@[simp] theorem State.setZN_halted : (s.setZN v).halted = s.halted := rfl
@[simp] theorem State.setZN_faultOpcode : (s.setZN v).faultOpcode = s.faultOpcode := rfl
@[simp] theorem State.setZN_faultPc : (s.setZN v).faultPc = s.faultPc := rfl
@[simp] theorem State.setZN_mem : (s.setZN v).mem = s.mem := rfl
@[simp] theorem State.setZN_external : (s.setZN v).external = s.external := rfl
@[simp] theorem State.setZN_reads : (s.setZN v).reads = s.reads := rfl
@[simp] theorem State.setZN_accesses : (s.setZN v).accesses = s.accesses := rfl

end SetZN

section BeginStep
variable (s : State)

@[simp] theorem State.beginStep_a : (s.beginStep).a = s.a := rfl
@[simp] theorem State.beginStep_x : (s.beginStep).x = s.x := rfl
@[simp] theorem State.beginStep_y : (s.beginStep).y = s.y := rfl
@[simp] theorem State.beginStep_sp : (s.beginStep).sp = s.sp := rfl
@[simp] theorem State.beginStep_pc : (s.beginStep).pc = s.pc := rfl
@[simp] theorem State.beginStep_flags : (s.beginStep).flags = s.flags := rfl
@[simp] theorem State.beginStep_halted : (s.beginStep).halted = s.halted := rfl
@[simp] theorem State.beginStep_faultOpcode : (s.beginStep).faultOpcode = s.faultOpcode := rfl
@[simp] theorem State.beginStep_faultPc : (s.beginStep).faultPc = s.faultPc := rfl
@[simp] theorem State.beginStep_mem : (s.beginStep).mem = s.mem := rfl
@[simp] theorem State.beginStep_external : (s.beginStep).external = s.external := rfl
@[simp] theorem State.beginStep_reads : (s.beginStep).reads = s.reads := rfl
@[simp] theorem State.beginStep_accesses : (s.beginStep).accesses = [] := rfl

end BeginStep

section BusRead
variable (s : State) (p : Address)

@[simp] theorem State.busRead_a : ((s.busRead p).2).a = s.a := rfl
@[simp] theorem State.busRead_x : ((s.busRead p).2).x = s.x := rfl
@[simp] theorem State.busRead_y : ((s.busRead p).2).y = s.y := rfl
@[simp] theorem State.busRead_sp : ((s.busRead p).2).sp = s.sp := rfl
@[simp] theorem State.busRead_pc : ((s.busRead p).2).pc = s.pc := rfl
@[simp] theorem State.busRead_flags : ((s.busRead p).2).flags = s.flags := rfl
@[simp] theorem State.busRead_halted : ((s.busRead p).2).halted = s.halted := rfl
@[simp] theorem State.busRead_faultOpcode : ((s.busRead p).2).faultOpcode = s.faultOpcode := rfl
@[simp] theorem State.busRead_faultPc : ((s.busRead p).2).faultPc = s.faultPc := rfl
@[simp] theorem State.busRead_mem : ((s.busRead p).2).mem = s.mem := rfl
@[simp] theorem State.busRead_external : ((s.busRead p).2).external = s.external := rfl
@[simp] theorem State.busRead_reads : ((s.busRead p).2).reads = s.reads + 1 := rfl
@[simp] theorem State.busRead_accesses : ((s.busRead p).2).accesses = s.accesses ++ [{ kind := .read, addr := p, value := s.answer 0 p }] := rfl

end BusRead

section BusWrite
variable (s : State) (p : Address) (v : Byte)

@[simp] theorem State.busWrite_a : (s.busWrite p v).a = s.a := rfl
@[simp] theorem State.busWrite_x : (s.busWrite p v).x = s.x := rfl
@[simp] theorem State.busWrite_y : (s.busWrite p v).y = s.y := rfl
@[simp] theorem State.busWrite_sp : (s.busWrite p v).sp = s.sp := rfl
@[simp] theorem State.busWrite_pc : (s.busWrite p v).pc = s.pc := rfl
@[simp] theorem State.busWrite_flags : (s.busWrite p v).flags = s.flags := rfl
@[simp] theorem State.busWrite_halted : (s.busWrite p v).halted = s.halted := rfl
@[simp] theorem State.busWrite_faultOpcode : (s.busWrite p v).faultOpcode = s.faultOpcode := rfl
@[simp] theorem State.busWrite_faultPc : (s.busWrite p v).faultPc = s.faultPc := rfl
@[simp] theorem State.busWrite_mem : (s.busWrite p v).mem = if s.isExternal p then s.mem else s.mem.set p.toNat v := rfl
@[simp] theorem State.busWrite_external : (s.busWrite p v).external = s.external := rfl
@[simp] theorem State.busWrite_reads : (s.busWrite p v).reads = s.reads := rfl
@[simp] theorem State.busWrite_accesses : (s.busWrite p v).accesses = s.accesses ++ [{ kind := .write, addr := p, value := v }] := rfl

end BusWrite

section TakeInvalidOpcode
variable (s : State) (op : Byte) (p : Address)

@[simp] theorem State.takeInvalidOpcode_a : (s.takeInvalidOpcode op p).a = s.a := rfl
@[simp] theorem State.takeInvalidOpcode_x : (s.takeInvalidOpcode op p).x = s.x := rfl
@[simp] theorem State.takeInvalidOpcode_y : (s.takeInvalidOpcode op p).y = s.y := rfl
@[simp] theorem State.takeInvalidOpcode_sp : (s.takeInvalidOpcode op p).sp = s.sp := rfl
@[simp] theorem State.takeInvalidOpcode_pc : (s.takeInvalidOpcode op p).pc = s.pc := rfl
@[simp] theorem State.takeInvalidOpcode_flags : (s.takeInvalidOpcode op p).flags = s.flags := rfl
@[simp] theorem State.takeInvalidOpcode_halted : (s.takeInvalidOpcode op p).halted = true := rfl
@[simp] theorem State.takeInvalidOpcode_faultOpcode : (s.takeInvalidOpcode op p).faultOpcode = op := rfl
@[simp] theorem State.takeInvalidOpcode_faultPc : (s.takeInvalidOpcode op p).faultPc = p := rfl
@[simp] theorem State.takeInvalidOpcode_mem : (s.takeInvalidOpcode op p).mem = s.mem := rfl
@[simp] theorem State.takeInvalidOpcode_external : (s.takeInvalidOpcode op p).external = s.external := rfl
@[simp] theorem State.takeInvalidOpcode_reads : (s.takeInvalidOpcode op p).reads = s.reads := rfl
@[simp] theorem State.takeInvalidOpcode_accesses : (s.takeInvalidOpcode op p).accesses = s.accesses := rfl

end TakeInvalidOpcode

section HostReset
variable (s : State) (p : Address)

@[simp] theorem State.hostReset_a : (s.hostReset p).a = Config.resetIndex := rfl
@[simp] theorem State.hostReset_x : (s.hostReset p).x = Config.resetIndex := rfl
@[simp] theorem State.hostReset_y : (s.hostReset p).y = Config.resetIndex := rfl
@[simp] theorem State.hostReset_sp : (s.hostReset p).sp = Config.resetSp := rfl
@[simp] theorem State.hostReset_pc : (s.hostReset p).pc = p := rfl
@[simp] theorem State.hostReset_flags : (s.hostReset p).flags = { c := false, z := false, i := false, d := false, b := false, v := false, n := false } := rfl
@[simp] theorem State.hostReset_halted : (s.hostReset p).halted = false := rfl
@[simp] theorem State.hostReset_faultOpcode : (s.hostReset p).faultOpcode = 0x00 := rfl
@[simp] theorem State.hostReset_faultPc : (s.hostReset p).faultPc = 0x0000 := rfl
@[simp] theorem State.hostReset_mem : (s.hostReset p).mem = s.mem := rfl
@[simp] theorem State.hostReset_external : (s.hostReset p).external = s.external := rfl
@[simp] theorem State.hostReset_reads : (s.hostReset p).reads = s.reads := rfl
@[simp] theorem State.hostReset_accesses : (s.hostReset p).accesses = [] := rfl

end HostReset

section EmbedMemory
variable (s : State) (m : Memory) (e : List Window)

@[simp] theorem State.embedMemory_a : (s.embedMemory m e).a = s.a := rfl
@[simp] theorem State.embedMemory_x : (s.embedMemory m e).x = s.x := rfl
@[simp] theorem State.embedMemory_y : (s.embedMemory m e).y = s.y := rfl
@[simp] theorem State.embedMemory_sp : (s.embedMemory m e).sp = s.sp := rfl
@[simp] theorem State.embedMemory_pc : (s.embedMemory m e).pc = s.pc := rfl
@[simp] theorem State.embedMemory_flags : (s.embedMemory m e).flags = s.flags := rfl
@[simp] theorem State.embedMemory_halted : (s.embedMemory m e).halted = s.halted := rfl
@[simp] theorem State.embedMemory_faultOpcode : (s.embedMemory m e).faultOpcode = s.faultOpcode := rfl
@[simp] theorem State.embedMemory_faultPc : (s.embedMemory m e).faultPc = s.faultPc := rfl
@[simp] theorem State.embedMemory_mem : (s.embedMemory m e).mem = m := rfl
@[simp] theorem State.embedMemory_external : (s.embedMemory m e).external = e := rfl
@[simp] theorem State.embedMemory_reads : (s.embedMemory m e).reads = s.reads := rfl
@[simp] theorem State.embedMemory_accesses : (s.embedMemory m e).accesses = s.accesses := rfl

end EmbedMemory

/-! ### Registers by name -/

/-- Reading the register just written gives the byte written; every other register is as before. -/
theorem State.reg_setReg (s : State) (r q : Reg) (v : Byte) :
    (s.setReg r v).reg q = if q = r then v else s.reg q := by
  cases r <;> cases q <;> rfl

@[simp] theorem State.setReg_a_a (s : State) (v : Byte) : (s.setReg .a v).a = v := rfl
@[simp] theorem State.setReg_x_x (s : State) (v : Byte) : (s.setReg .x v).x = v := rfl
@[simp] theorem State.setReg_y_y (s : State) (v : Byte) : (s.setReg .y v).y = v := rfl
@[simp] theorem State.setReg_sp_sp (s : State) (v : Byte) : (s.setReg .sp v).sp = v := rfl

theorem State.setReg_a_of_ne (s : State) {r : Reg} (v : Byte) (h : r ≠ .a) : (s.setReg r v).a = s.a := by
  cases r <;> first | rfl | exact absurd rfl h

theorem State.setReg_x_of_ne (s : State) {r : Reg} (v : Byte) (h : r ≠ .x) : (s.setReg r v).x = s.x := by
  cases r <;> first | rfl | exact absurd rfl h

theorem State.setReg_y_of_ne (s : State) {r : Reg} (v : Byte) (h : r ≠ .y) : (s.setReg r v).y = s.y := by
  cases r <;> first | rfl | exact absurd rfl h

theorem State.setReg_sp_of_ne (s : State) {r : Reg} (v : Byte) (h : r ≠ .sp) : (s.setReg r v).sp = s.sp := by
  cases r <;> first | rfl | exact absurd rfl h

@[simp] theorem State.reg_a (s : State) : s.reg .a = s.a := rfl
@[simp] theorem State.reg_x (s : State) : s.reg .x = s.x := rfl
@[simp] theorem State.reg_y (s : State) : s.reg .y = s.y := rfl
@[simp] theorem State.reg_sp (s : State) : s.reg .sp = s.sp := rfl

@[simp] theorem State.busRead_value (s : State) (p : Address) : (s.busRead p).1 = s.answer 0 p := rfl

end Sys2Proof.Machine
end

