-- ==== Sys2Proof/Laws/Ops.lean ====
section
/-! SUPPORT. What each shared operation can do, said once: the operations that read change only the record of accesses
and the index of the next free value; a push changes only `SP`, memory and that record. -/

namespace Sys2Proof.Machine

section Read16
variable (s : State) (lo hi : Address)

@[simp] theorem State.read16_a : ((s.read16 lo hi).2).a = s.a := rfl
@[simp] theorem State.read16_x : ((s.read16 lo hi).2).x = s.x := rfl
@[simp] theorem State.read16_y : ((s.read16 lo hi).2).y = s.y := rfl
@[simp] theorem State.read16_sp : ((s.read16 lo hi).2).sp = s.sp := rfl
@[simp] theorem State.read16_pc : ((s.read16 lo hi).2).pc = s.pc := rfl
@[simp] theorem State.read16_flags : ((s.read16 lo hi).2).flags = s.flags := rfl
@[simp] theorem State.read16_halted : ((s.read16 lo hi).2).halted = s.halted := rfl
@[simp] theorem State.read16_faultOpcode : ((s.read16 lo hi).2).faultOpcode = s.faultOpcode := rfl
@[simp] theorem State.read16_faultPc : ((s.read16 lo hi).2).faultPc = s.faultPc := rfl
@[simp] theorem State.read16_mem : ((s.read16 lo hi).2).mem = s.mem := rfl
@[simp] theorem State.read16_external : ((s.read16 lo hi).2).external = s.external := rfl

end Read16

section ZpPointer
variable (s : State) (p : Byte)

@[simp] theorem State.zpPointer_a : ((s.zpPointer p).2).a = s.a := rfl
@[simp] theorem State.zpPointer_x : ((s.zpPointer p).2).x = s.x := rfl
@[simp] theorem State.zpPointer_y : ((s.zpPointer p).2).y = s.y := rfl
@[simp] theorem State.zpPointer_sp : ((s.zpPointer p).2).sp = s.sp := rfl
@[simp] theorem State.zpPointer_pc : ((s.zpPointer p).2).pc = s.pc := rfl
@[simp] theorem State.zpPointer_flags : ((s.zpPointer p).2).flags = s.flags := rfl
@[simp] theorem State.zpPointer_halted : ((s.zpPointer p).2).halted = s.halted := rfl
@[simp] theorem State.zpPointer_faultOpcode : ((s.zpPointer p).2).faultOpcode = s.faultOpcode := rfl
@[simp] theorem State.zpPointer_faultPc : ((s.zpPointer p).2).faultPc = s.faultPc := rfl
@[simp] theorem State.zpPointer_mem : ((s.zpPointer p).2).mem = s.mem := rfl
@[simp] theorem State.zpPointer_external : ((s.zpPointer p).2).external = s.external := rfl

end ZpPointer

section Resolve
variable (s : State) (o : MemOperand)

@[simp] theorem State.resolve_a : ((s.resolve o).2).a = s.a := by cases o <;> rfl
@[simp] theorem State.resolve_x : ((s.resolve o).2).x = s.x := by cases o <;> rfl
@[simp] theorem State.resolve_y : ((s.resolve o).2).y = s.y := by cases o <;> rfl
@[simp] theorem State.resolve_sp : ((s.resolve o).2).sp = s.sp := by cases o <;> rfl
@[simp] theorem State.resolve_pc : ((s.resolve o).2).pc = s.pc := by cases o <;> rfl
@[simp] theorem State.resolve_flags : ((s.resolve o).2).flags = s.flags := by cases o <;> rfl
@[simp] theorem State.resolve_halted : ((s.resolve o).2).halted = s.halted := by cases o <;> rfl
@[simp] theorem State.resolve_faultOpcode : ((s.resolve o).2).faultOpcode = s.faultOpcode := by cases o <;> rfl
@[simp] theorem State.resolve_faultPc : ((s.resolve o).2).faultPc = s.faultPc := by cases o <;> rfl
@[simp] theorem State.resolve_mem : ((s.resolve o).2).mem = s.mem := by cases o <;> rfl
@[simp] theorem State.resolve_external : ((s.resolve o).2).external = s.external := by cases o <;> rfl

end Resolve

section ResolveIndirect
variable (s : State) (p : Address)

@[simp] theorem State.resolveIndirect_a : ((s.resolveIndirect p).2).a = s.a := rfl
@[simp] theorem State.resolveIndirect_x : ((s.resolveIndirect p).2).x = s.x := rfl
@[simp] theorem State.resolveIndirect_y : ((s.resolveIndirect p).2).y = s.y := rfl
@[simp] theorem State.resolveIndirect_sp : ((s.resolveIndirect p).2).sp = s.sp := rfl
@[simp] theorem State.resolveIndirect_pc : ((s.resolveIndirect p).2).pc = s.pc := rfl
@[simp] theorem State.resolveIndirect_flags : ((s.resolveIndirect p).2).flags = s.flags := rfl
@[simp] theorem State.resolveIndirect_halted : ((s.resolveIndirect p).2).halted = s.halted := rfl
@[simp] theorem State.resolveIndirect_faultOpcode : ((s.resolveIndirect p).2).faultOpcode = s.faultOpcode := rfl
@[simp] theorem State.resolveIndirect_faultPc : ((s.resolveIndirect p).2).faultPc = s.faultPc := rfl
@[simp] theorem State.resolveIndirect_mem : ((s.resolveIndirect p).2).mem = s.mem := rfl
@[simp] theorem State.resolveIndirect_external : ((s.resolveIndirect p).2).external = s.external := rfl

end ResolveIndirect

section LoadOperand
variable (s : State) (src : Source)

@[simp] theorem State.loadOperand_a : ((s.loadOperand src).2).a = s.a := by cases src <;> simp [State.loadOperand]
@[simp] theorem State.loadOperand_x : ((s.loadOperand src).2).x = s.x := by cases src <;> simp [State.loadOperand]
@[simp] theorem State.loadOperand_y : ((s.loadOperand src).2).y = s.y := by cases src <;> simp [State.loadOperand]
@[simp] theorem State.loadOperand_sp : ((s.loadOperand src).2).sp = s.sp := by cases src <;> simp [State.loadOperand]
@[simp] theorem State.loadOperand_pc : ((s.loadOperand src).2).pc = s.pc := by cases src <;> simp [State.loadOperand]
@[simp] theorem State.loadOperand_flags : ((s.loadOperand src).2).flags = s.flags := by cases src <;> simp [State.loadOperand]
@[simp] theorem State.loadOperand_halted : ((s.loadOperand src).2).halted = s.halted := by cases src <;> simp [State.loadOperand]
@[simp] theorem State.loadOperand_faultOpcode : ((s.loadOperand src).2).faultOpcode = s.faultOpcode := by cases src <;> simp [State.loadOperand]
@[simp] theorem State.loadOperand_faultPc : ((s.loadOperand src).2).faultPc = s.faultPc := by cases src <;> simp [State.loadOperand]
@[simp] theorem State.loadOperand_mem : ((s.loadOperand src).2).mem = s.mem := by cases src <;> simp [State.loadOperand]
@[simp] theorem State.loadOperand_external : ((s.loadOperand src).2).external = s.external := by cases src <;> simp [State.loadOperand]

end LoadOperand

section Push
variable (s : State) (v : Byte)

@[simp] theorem State.push_a : (s.push v).a = s.a := rfl
@[simp] theorem State.push_x : (s.push v).x = s.x := rfl
@[simp] theorem State.push_y : (s.push v).y = s.y := rfl
@[simp] theorem State.push_pc : (s.push v).pc = s.pc := rfl
@[simp] theorem State.push_flags : (s.push v).flags = s.flags := rfl
@[simp] theorem State.push_halted : (s.push v).halted = s.halted := rfl
@[simp] theorem State.push_faultOpcode : (s.push v).faultOpcode = s.faultOpcode := rfl
@[simp] theorem State.push_faultPc : (s.push v).faultPc = s.faultPc := rfl
@[simp] theorem State.push_external : (s.push v).external = s.external := rfl

end Push

section Pull
variable (s : State)

@[simp] theorem State.pull_a : (s.pull.2).a = s.a := rfl
@[simp] theorem State.pull_x : (s.pull.2).x = s.x := rfl
@[simp] theorem State.pull_y : (s.pull.2).y = s.y := rfl
@[simp] theorem State.pull_pc : (s.pull.2).pc = s.pc := rfl
@[simp] theorem State.pull_flags : (s.pull.2).flags = s.flags := rfl
@[simp] theorem State.pull_halted : (s.pull.2).halted = s.halted := rfl
@[simp] theorem State.pull_faultOpcode : (s.pull.2).faultOpcode = s.faultOpcode := rfl
@[simp] theorem State.pull_faultPc : (s.pull.2).faultPc = s.faultPc := rfl
@[simp] theorem State.pull_mem : (s.pull.2).mem = s.mem := rfl
@[simp] theorem State.pull_external : (s.pull.2).external = s.external := rfl

end Pull

section Fetch8
variable (s : State)

@[simp] theorem State.fetch8_a : (s.fetch8.2).a = s.a := rfl
@[simp] theorem State.fetch8_x : (s.fetch8.2).x = s.x := rfl
@[simp] theorem State.fetch8_y : (s.fetch8.2).y = s.y := rfl
@[simp] theorem State.fetch8_sp : (s.fetch8.2).sp = s.sp := rfl
@[simp] theorem State.fetch8_flags : (s.fetch8.2).flags = s.flags := rfl
@[simp] theorem State.fetch8_halted : (s.fetch8.2).halted = s.halted := rfl
@[simp] theorem State.fetch8_faultOpcode : (s.fetch8.2).faultOpcode = s.faultOpcode := rfl
@[simp] theorem State.fetch8_faultPc : (s.fetch8.2).faultPc = s.faultPc := rfl
@[simp] theorem State.fetch8_mem : (s.fetch8.2).mem = s.mem := rfl
@[simp] theorem State.fetch8_external : (s.fetch8.2).external = s.external := rfl

end Fetch8

@[simp] theorem State.push_sp (s : State) (v : Byte) : (s.push v).sp = s.sp - 1 := rfl
@[simp] theorem State.push_mem (s : State) (v : Byte) :
    (s.push v).mem = (s.busWrite (stackAddr s.sp) v).mem := rfl
@[simp] theorem State.pull_sp (s : State) : s.pull.2.sp = s.sp + 1 := rfl
@[simp] theorem State.pull_value (s : State) : s.pull.1 = s.answer 0 (stackAddr (s.sp + 1)) := rfl
@[simp] theorem State.fetch8_pc (s : State) : s.fetch8.2.pc = s.pc + 1 := rfl
@[simp] theorem State.fetch8_value (s : State) : s.fetch8.1 = s.answer 0 s.pc := rfl

/-! ### The reads of an operation -/

/-- The pointer reads of a memory operand: none, or the two bytes of a zero-page pointer (R44). -/
theorem State.resolve_reads (s : State) (o : MemOperand) :
    ∃ l : List Access, (s.resolve o).2.accesses = s.accesses ++ l ∧ (s.resolve o).2.reads = s.reads + l.length ∧
      l.length ≤ 2 := by
  have hp : ∀ p : Byte, ∃ l : List Access, (s.zpPointer p).2.accesses = s.accesses ++ l ∧
      (s.zpPointer p).2.reads = s.reads + l.length ∧ l.length ≤ 2 := fun p =>
    ⟨[{ kind := .read, addr := zext16 p, value := s.answer 0 (zext16 p) },
      { kind := .read, addr := zext16 (p + 1), value := (s.busRead (zext16 p)).2.answer 0 (zext16 (p + 1)) }],
      List.append_assoc _ _ _, rfl, Nat.le_refl 2⟩
  cases o with
  | izx b => exact hp (b + s.x)
  | izy b => exact hp b
  | zp b | zpx b | zpy b | abs a | abx a | aby a => exact ⟨[], (List.append_nil _).symm, rfl, Nat.zero_le 2⟩

/-- `LoadOperand` of a memory operand makes one read more than its resolution (R83). -/
theorem State.loadOperand_memory (s : State) (o : MemOperand) :
    s.loadOperand (.memory o) = (s.resolve o).2.busRead (s.resolve o).1 := rfl

/-- `LoadOperand` of an immediate gives the byte and touches nothing: the fetch has read it (log entry 8). -/
@[simp] theorem State.loadOperand_immediate (s : State) (v : Byte) : s.loadOperand (.immediate v) = (v, s) := rfl

/-! ### Where there is storage -/

/-- A read of an address with storage behind it gives the stored byte (R39). -/
theorem State.answer_of_stored {s : State} {p : Address} (h : s.isExternal p = false) (k : Nat) :
    s.answer k p = s.byteAt p := by
  simp [State.answer, h]

/-- An answer depends on the windows, the count of reads and the storage alone. -/
theorem State.answer_congr {s t : State} (he : t.external = s.external) (hm : t.mem = s.mem) {j k : Nat}
    (hr : t.reads + j = s.reads + k) (p : Address) : t.answer j p = s.answer k p := by
  simp [State.answer, State.isExternal, State.byteAt, he, hm, hr]

/-- After a read, the next answer is one further on. -/
@[simp] theorem State.answer_busRead (s : State) (q : Address) (k : Nat) (p : Address) :
    (s.busRead q).2.answer k p = s.answer (k + 1) p :=
  State.answer_congr (s := s) (t := (s.busRead q).2) (j := k) (k := k + 1) rfl rfl
    (by show s.reads + 1 + k = s.reads + (k + 1); omega) p

@[simp] theorem State.answer_setPc (s : State) (q : Address) (k : Nat) (p : Address) :
    (s.setPc q).answer k p = s.answer k p := rfl

@[simp] theorem State.answer_setFlags (s : State) (f : Flags) (k : Nat) (p : Address) :
    (s.setFlags f).answer k p = s.answer k p := rfl

@[simp] theorem State.answer_setReg (s : State) (r : Reg) (v : Byte) (k : Nat) (p : Address) :
    (s.setReg r v).answer k p = s.answer k p := by cases r <;> rfl

@[simp] theorem State.answer_beginStep (s : State) (k : Nat) (p : Address) :
    s.beginStep.answer k p = s.answer k p := rfl

/-- What is external depends on the windows alone. -/
theorem State.isExternal_congr {s t : State} (h : t.external = s.external) (p : Address) :
    t.isExternal p = s.isExternal p := by
  simp [State.isExternal, h]

/-- A write stores its byte where there is storage (R30, R39). -/
theorem State.byteAt_busWrite_self {s : State} (hm : s.mem.wf = true) {p : Address} (v : Byte)
    (h : s.isExternal p = false) : (s.busWrite p v).byteAt p = v := by
  simp [State.byteAt, h, Memory.get_set hm]

/-- A write changes no other byte of storage (R31). -/
theorem State.byteAt_busWrite_ne (s : State) {p q : Address} (v : Byte) (h : q ≠ p) :
    (s.busWrite p v).byteAt q = s.byteAt q := by
  have hne : p.toNat ≠ q.toNat := fun e => h (BitVec.eq_of_toNat_eq e).symm
  by_cases he : s.isExternal p <;> simp [State.byteAt, he, Memory.get_set_ne _ _ hne]

/-- A write keeps the canonical form of memory. -/
theorem State.busWrite_wf {s : State} (hm : s.mem.wf = true) (p : Address) (v : Byte) :
    (s.busWrite p v).mem.wf = true := by
  by_cases he : s.isExternal p <;> simp [he, hm, Memory.set_wf]

/-- A push keeps the canonical form of memory. -/
theorem State.push_wf {s : State} (hm : s.mem.wf = true) (v : Byte) : (s.push v).mem.wf = true := by
  simpa only [State.push_mem] using State.busWrite_wf hm (stackAddr s.sp) v

end Sys2Proof.Machine
end

