-- ==== Sys2Proof/Laws/Meanings.lean ====
section
/-! SUPPORT. What every named operation and every shared meaning keeps: the fault latch, the windows of memory, and the
canonical form of memory. One lemma for each, so that a proof about an instruction cites them and unfolds nothing. -/

namespace Sys2Proof.Machine

/-- What no instruction changes (R181, R188), and the form that every instruction keeps (log entry 1). -/
structure Kept (s t : State) : Prop where
  halted : t.halted = s.halted
  faultOpcode : t.faultOpcode = s.faultOpcode
  faultPc : t.faultPc = s.faultPc
  external : t.external = s.external
  wf : s.mem.wf = true → t.mem.wf = true

theorem Kept.refl (s : State) : Kept s s := ⟨rfl, rfl, rfl, rfl, id⟩

theorem Kept.trans {s t u : State} (h : Kept s t) (k : Kept t u) : Kept s u :=
  ⟨k.halted.trans h.halted, k.faultOpcode.trans h.faultOpcode, k.faultPc.trans h.faultPc,
    k.external.trans h.external, fun w => k.wf (h.wf w)⟩

/-! ### The named operations -/

theorem kept_setReg (s : State) (r : Reg) (v : Byte) : Kept s (s.setReg r v) := by
  cases r <;> exact ⟨rfl, rfl, rfl, rfl, id⟩

theorem kept_setPc (s : State) (p : Address) : Kept s (s.setPc p) := ⟨rfl, rfl, rfl, rfl, id⟩

theorem kept_setFlags (s : State) (f : Flags) : Kept s (s.setFlags f) := ⟨rfl, rfl, rfl, rfl, id⟩

theorem kept_setZN (s : State) (v : Byte) : Kept s (s.setZN v) := ⟨rfl, rfl, rfl, rfl, id⟩

theorem kept_busRead (s : State) (p : Address) : Kept s (s.busRead p).2 := ⟨rfl, rfl, rfl, rfl, id⟩

theorem kept_busWrite (s : State) (p : Address) (v : Byte) : Kept s (s.busWrite p v) :=
  ⟨rfl, rfl, rfl, rfl, fun w => State.busWrite_wf w p v⟩

theorem kept_push (s : State) (v : Byte) : Kept s (s.push v) := (kept_busWrite s _ v).trans (kept_setReg _ .sp _)

theorem kept_pull (s : State) : Kept s s.pull.2 := (kept_setReg s .sp _).trans (kept_busRead _ _)

theorem kept_read16 (s : State) (lo hi : Address) : Kept s (s.read16 lo hi).2 :=
  (kept_busRead s lo).trans (kept_busRead _ hi)

theorem kept_resolve (s : State) (o : MemOperand) : Kept s (s.resolve o).2 := by
  cases o <;> first | exact Kept.refl s | exact kept_read16 s _ _

theorem kept_loadOperand (s : State) (src : Source) : Kept s (s.loadOperand src).2 := by
  cases src with
  | immediate v => exact Kept.refl s
  | memory o => exact (kept_resolve s o).trans (kept_busRead _ _)

theorem kept_fetch8 (s : State) : Kept s s.fetch8.2 := (kept_busRead s s.pc).trans (kept_setPc _ _)

/-! ### The shared meanings: each answers a next state, and keeps what `Kept` says -/

theorem load_kept (r : Reg) (src : Source) (s : State) : ∃ t, load r src s = .next t ∧ Kept s t :=
  ⟨_, rfl, ((kept_loadOperand s src).trans (kept_setReg _ r _)).trans (kept_setZN _ _)⟩

theorem store_kept (r : Reg) (o : MemOperand) (s : State) : ∃ t, store r o s = .next t ∧ Kept s t :=
  ⟨_, rfl, (kept_resolve s o).trans (kept_busWrite _ _ _)⟩

theorem transfer_kept (src dst : Reg) (s : State) : ∃ t, transfer src dst s = .next t ∧ Kept s t :=
  ⟨_, rfl, (kept_setReg s dst _).trans (kept_setZN _ _)⟩

theorem addCarry_kept (src : Source) (s : State) : ∃ t, addCarry src s = .next t ∧ Kept s t :=
  ⟨_, rfl, ((kept_loadOperand s src).trans (kept_setReg _ .a _)).trans (kept_setFlags _ _)⟩

theorem subCarry_kept (src : Source) (s : State) : ∃ t, subCarry src s = .next t ∧ Kept s t :=
  ⟨_, rfl, ((kept_loadOperand s src).trans (kept_setReg _ .a _)).trans (kept_setFlags _ _)⟩

theorem compare_kept (r : Reg) (src : Source) (s : State) : ∃ t, compare r src s = .next t ∧ Kept s t :=
  ⟨_, rfl, (kept_loadOperand s src).trans (kept_setFlags _ _)⟩

theorem logical_kept (op : Byte → Byte → Byte) (src : Source) (s : State) :
    ∃ t, logical op src s = .next t ∧ Kept s t :=
  ⟨_, rfl, ((kept_loadOperand s src).trans (kept_setReg _ .a _)).trans (kept_setZN _ _)⟩

theorem shift_kept (op : Bool → Byte → Shifted) (tgt : Target) (s : State) :
    ∃ t, shift op tgt s = .next t ∧ Kept s t := by
  cases tgt with
  | accumulator => exact ⟨_, rfl, (kept_setReg s .a _).trans (kept_setFlags _ _)⟩
  | memory o =>
    exact ⟨_, rfl, (((kept_resolve s o).trans (kept_busRead _ _)).trans (kept_busWrite _ _ _)).trans
      (kept_setFlags _ _)⟩

theorem modify_kept (op : Byte → Byte) (o : MemOperand) (s : State) : ∃ t, modify op o s = .next t ∧ Kept s t :=
  ⟨_, rfl, (((kept_resolve s o).trans (kept_busRead _ _)).trans (kept_busWrite _ _ _)).trans (kept_setZN _ _)⟩

theorem modifyReg_kept (op : Byte → Byte) (r : Reg) (s : State) : ∃ t, modifyReg op r s = .next t ∧ Kept s t :=
  ⟨_, rfl, (kept_setReg s r _).trans (kept_setZN _ _)⟩

theorem bitTest_kept (o : MemOperand) (s : State) : ∃ t, bitTest o s = .next t ∧ Kept s t :=
  ⟨_, rfl, (kept_loadOperand s (.memory o)).trans (kept_setFlags _ _)⟩

theorem branch_kept (c : Bool) (d : Byte) (s : State) : ∃ t, branch c d s = .next t ∧ Kept s t := by
  refine ⟨_, rfl, ?_⟩
  cases c with
  | true => exact kept_setPc s _
  | false => exact Kept.refl s

end Sys2Proof.Machine
end

