-- ==== Sys2Proof/Laws/Exec.lean ====
section
/-! SUPPORT. The dispatch, arm by arm, as the shared meaning it comes to: the normal form in which a proof about an
instruction works. -/

namespace Sys2Proof.Machine

@[simp] theorem exec_ldaImm (v : Byte) (s : State) : exec (.ldaImm v) s = load .a (.immediate v) s := rfl
@[simp] theorem exec_ldaZp (b : Byte) (s : State) : exec (.ldaZp b) s = load .a (.memory (.zp b)) s := rfl
@[simp] theorem exec_ldaZpx (b : Byte) (s : State) : exec (.ldaZpx b) s = load .a (.memory (.zpx b)) s := rfl
@[simp] theorem exec_ldaAbs (a : Address) (s : State) : exec (.ldaAbs a) s = load .a (.memory (.abs a)) s := rfl
@[simp] theorem exec_ldaAbx (a : Address) (s : State) : exec (.ldaAbx a) s = load .a (.memory (.abx a)) s := rfl
@[simp] theorem exec_ldaAby (a : Address) (s : State) : exec (.ldaAby a) s = load .a (.memory (.aby a)) s := rfl
@[simp] theorem exec_ldaIzx (b : Byte) (s : State) : exec (.ldaIzx b) s = load .a (.memory (.izx b)) s := rfl
@[simp] theorem exec_ldaIzy (b : Byte) (s : State) : exec (.ldaIzy b) s = load .a (.memory (.izy b)) s := rfl
@[simp] theorem exec_ldxImm (v : Byte) (s : State) : exec (.ldxImm v) s = load .x (.immediate v) s := rfl
@[simp] theorem exec_ldxZp (b : Byte) (s : State) : exec (.ldxZp b) s = load .x (.memory (.zp b)) s := rfl
@[simp] theorem exec_ldxZpy (b : Byte) (s : State) : exec (.ldxZpy b) s = load .x (.memory (.zpy b)) s := rfl
@[simp] theorem exec_ldxAbs (a : Address) (s : State) : exec (.ldxAbs a) s = load .x (.memory (.abs a)) s := rfl
@[simp] theorem exec_ldxAby (a : Address) (s : State) : exec (.ldxAby a) s = load .x (.memory (.aby a)) s := rfl
@[simp] theorem exec_ldyImm (v : Byte) (s : State) : exec (.ldyImm v) s = load .y (.immediate v) s := rfl
@[simp] theorem exec_ldyZp (b : Byte) (s : State) : exec (.ldyZp b) s = load .y (.memory (.zp b)) s := rfl
@[simp] theorem exec_ldyZpx (b : Byte) (s : State) : exec (.ldyZpx b) s = load .y (.memory (.zpx b)) s := rfl
@[simp] theorem exec_ldyAbs (a : Address) (s : State) : exec (.ldyAbs a) s = load .y (.memory (.abs a)) s := rfl
@[simp] theorem exec_ldyAbx (a : Address) (s : State) : exec (.ldyAbx a) s = load .y (.memory (.abx a)) s := rfl
@[simp] theorem exec_staZp (b : Byte) (s : State) : exec (.staZp b) s = store .a (.zp b) s := rfl
@[simp] theorem exec_staZpx (b : Byte) (s : State) : exec (.staZpx b) s = store .a (.zpx b) s := rfl
@[simp] theorem exec_staAbs (a : Address) (s : State) : exec (.staAbs a) s = store .a (.abs a) s := rfl
@[simp] theorem exec_staAbx (a : Address) (s : State) : exec (.staAbx a) s = store .a (.abx a) s := rfl
@[simp] theorem exec_staAby (a : Address) (s : State) : exec (.staAby a) s = store .a (.aby a) s := rfl
@[simp] theorem exec_staIzx (b : Byte) (s : State) : exec (.staIzx b) s = store .a (.izx b) s := rfl
@[simp] theorem exec_staIzy (b : Byte) (s : State) : exec (.staIzy b) s = store .a (.izy b) s := rfl
@[simp] theorem exec_stxZp (b : Byte) (s : State) : exec (.stxZp b) s = store .x (.zp b) s := rfl
@[simp] theorem exec_stxZpy (b : Byte) (s : State) : exec (.stxZpy b) s = store .x (.zpy b) s := rfl
@[simp] theorem exec_stxAbs (a : Address) (s : State) : exec (.stxAbs a) s = store .x (.abs a) s := rfl
@[simp] theorem exec_styZp (b : Byte) (s : State) : exec (.styZp b) s = store .y (.zp b) s := rfl
@[simp] theorem exec_styZpx (b : Byte) (s : State) : exec (.styZpx b) s = store .y (.zpx b) s := rfl
@[simp] theorem exec_styAbs (a : Address) (s : State) : exec (.styAbs a) s = store .y (.abs a) s := rfl
@[simp] theorem exec_tax (s : State) : exec .tax s = transfer .a .x s := rfl
@[simp] theorem exec_tay (s : State) : exec .tay s = transfer .a .y s := rfl
@[simp] theorem exec_txa (s : State) : exec .txa s = transfer .x .a s := rfl
@[simp] theorem exec_tya (s : State) : exec .tya s = transfer .y .a s := rfl
@[simp] theorem exec_tsx (s : State) : exec .tsx s = transfer .sp .x s := rfl
@[simp] theorem exec_txs (s : State) : exec .txs s = .next (s.setReg .sp s.x) := rfl
@[simp] theorem exec_adcImm (v : Byte) (s : State) : exec (.adcImm v) s = addCarry (.immediate v) s := rfl
@[simp] theorem exec_adcZp (b : Byte) (s : State) : exec (.adcZp b) s = addCarry (.memory (.zp b)) s := rfl
@[simp] theorem exec_adcZpx (b : Byte) (s : State) : exec (.adcZpx b) s = addCarry (.memory (.zpx b)) s := rfl
@[simp] theorem exec_adcAbs (a : Address) (s : State) : exec (.adcAbs a) s = addCarry (.memory (.abs a)) s := rfl
@[simp] theorem exec_adcAbx (a : Address) (s : State) : exec (.adcAbx a) s = addCarry (.memory (.abx a)) s := rfl
@[simp] theorem exec_adcAby (a : Address) (s : State) : exec (.adcAby a) s = addCarry (.memory (.aby a)) s := rfl
@[simp] theorem exec_adcIzx (b : Byte) (s : State) : exec (.adcIzx b) s = addCarry (.memory (.izx b)) s := rfl
@[simp] theorem exec_adcIzy (b : Byte) (s : State) : exec (.adcIzy b) s = addCarry (.memory (.izy b)) s := rfl
@[simp] theorem exec_sbcImm (v : Byte) (s : State) : exec (.sbcImm v) s = subCarry (.immediate v) s := rfl
@[simp] theorem exec_sbcZp (b : Byte) (s : State) : exec (.sbcZp b) s = subCarry (.memory (.zp b)) s := rfl
@[simp] theorem exec_sbcZpx (b : Byte) (s : State) : exec (.sbcZpx b) s = subCarry (.memory (.zpx b)) s := rfl
@[simp] theorem exec_sbcAbs (a : Address) (s : State) : exec (.sbcAbs a) s = subCarry (.memory (.abs a)) s := rfl
@[simp] theorem exec_sbcAbx (a : Address) (s : State) : exec (.sbcAbx a) s = subCarry (.memory (.abx a)) s := rfl
@[simp] theorem exec_sbcAby (a : Address) (s : State) : exec (.sbcAby a) s = subCarry (.memory (.aby a)) s := rfl
@[simp] theorem exec_sbcIzx (b : Byte) (s : State) : exec (.sbcIzx b) s = subCarry (.memory (.izx b)) s := rfl
@[simp] theorem exec_sbcIzy (b : Byte) (s : State) : exec (.sbcIzy b) s = subCarry (.memory (.izy b)) s := rfl
@[simp] theorem exec_cmpImm (v : Byte) (s : State) : exec (.cmpImm v) s = compare .a (.immediate v) s := rfl
@[simp] theorem exec_cmpZp (b : Byte) (s : State) : exec (.cmpZp b) s = compare .a (.memory (.zp b)) s := rfl
@[simp] theorem exec_cmpZpx (b : Byte) (s : State) : exec (.cmpZpx b) s = compare .a (.memory (.zpx b)) s := rfl
@[simp] theorem exec_cmpAbs (a : Address) (s : State) : exec (.cmpAbs a) s = compare .a (.memory (.abs a)) s := rfl
@[simp] theorem exec_cmpAbx (a : Address) (s : State) : exec (.cmpAbx a) s = compare .a (.memory (.abx a)) s := rfl
@[simp] theorem exec_cmpAby (a : Address) (s : State) : exec (.cmpAby a) s = compare .a (.memory (.aby a)) s := rfl
@[simp] theorem exec_cmpIzx (b : Byte) (s : State) : exec (.cmpIzx b) s = compare .a (.memory (.izx b)) s := rfl
@[simp] theorem exec_cmpIzy (b : Byte) (s : State) : exec (.cmpIzy b) s = compare .a (.memory (.izy b)) s := rfl
@[simp] theorem exec_cpxImm (v : Byte) (s : State) : exec (.cpxImm v) s = compare .x (.immediate v) s := rfl
@[simp] theorem exec_cpxZp (b : Byte) (s : State) : exec (.cpxZp b) s = compare .x (.memory (.zp b)) s := rfl
@[simp] theorem exec_cpxAbs (a : Address) (s : State) : exec (.cpxAbs a) s = compare .x (.memory (.abs a)) s := rfl
@[simp] theorem exec_cpyImm (v : Byte) (s : State) : exec (.cpyImm v) s = compare .y (.immediate v) s := rfl
@[simp] theorem exec_cpyZp (b : Byte) (s : State) : exec (.cpyZp b) s = compare .y (.memory (.zp b)) s := rfl
@[simp] theorem exec_cpyAbs (a : Address) (s : State) : exec (.cpyAbs a) s = compare .y (.memory (.abs a)) s := rfl
@[simp] theorem exec_andImm (v : Byte) (s : State) : exec (.andImm v) s = logical (· &&& ·) (.immediate v) s := rfl
@[simp] theorem exec_andZp (b : Byte) (s : State) : exec (.andZp b) s = logical (· &&& ·) (.memory (.zp b)) s := rfl
@[simp] theorem exec_andZpx (b : Byte) (s : State) : exec (.andZpx b) s = logical (· &&& ·) (.memory (.zpx b)) s := rfl
@[simp] theorem exec_andAbs (a : Address) (s : State) : exec (.andAbs a) s = logical (· &&& ·) (.memory (.abs a)) s := rfl
@[simp] theorem exec_andAbx (a : Address) (s : State) : exec (.andAbx a) s = logical (· &&& ·) (.memory (.abx a)) s := rfl
@[simp] theorem exec_andAby (a : Address) (s : State) : exec (.andAby a) s = logical (· &&& ·) (.memory (.aby a)) s := rfl
@[simp] theorem exec_andIzx (b : Byte) (s : State) : exec (.andIzx b) s = logical (· &&& ·) (.memory (.izx b)) s := rfl
@[simp] theorem exec_andIzy (b : Byte) (s : State) : exec (.andIzy b) s = logical (· &&& ·) (.memory (.izy b)) s := rfl
@[simp] theorem exec_oraImm (v : Byte) (s : State) : exec (.oraImm v) s = logical (· ||| ·) (.immediate v) s := rfl
@[simp] theorem exec_oraZp (b : Byte) (s : State) : exec (.oraZp b) s = logical (· ||| ·) (.memory (.zp b)) s := rfl
@[simp] theorem exec_oraZpx (b : Byte) (s : State) : exec (.oraZpx b) s = logical (· ||| ·) (.memory (.zpx b)) s := rfl
@[simp] theorem exec_oraAbs (a : Address) (s : State) : exec (.oraAbs a) s = logical (· ||| ·) (.memory (.abs a)) s := rfl
@[simp] theorem exec_oraAbx (a : Address) (s : State) : exec (.oraAbx a) s = logical (· ||| ·) (.memory (.abx a)) s := rfl
@[simp] theorem exec_oraAby (a : Address) (s : State) : exec (.oraAby a) s = logical (· ||| ·) (.memory (.aby a)) s := rfl
@[simp] theorem exec_oraIzx (b : Byte) (s : State) : exec (.oraIzx b) s = logical (· ||| ·) (.memory (.izx b)) s := rfl
@[simp] theorem exec_oraIzy (b : Byte) (s : State) : exec (.oraIzy b) s = logical (· ||| ·) (.memory (.izy b)) s := rfl
@[simp] theorem exec_eorImm (v : Byte) (s : State) : exec (.eorImm v) s = logical (· ^^^ ·) (.immediate v) s := rfl
@[simp] theorem exec_eorZp (b : Byte) (s : State) : exec (.eorZp b) s = logical (· ^^^ ·) (.memory (.zp b)) s := rfl
@[simp] theorem exec_eorZpx (b : Byte) (s : State) : exec (.eorZpx b) s = logical (· ^^^ ·) (.memory (.zpx b)) s := rfl
@[simp] theorem exec_eorAbs (a : Address) (s : State) : exec (.eorAbs a) s = logical (· ^^^ ·) (.memory (.abs a)) s := rfl
@[simp] theorem exec_eorAbx (a : Address) (s : State) : exec (.eorAbx a) s = logical (· ^^^ ·) (.memory (.abx a)) s := rfl
@[simp] theorem exec_eorAby (a : Address) (s : State) : exec (.eorAby a) s = logical (· ^^^ ·) (.memory (.aby a)) s := rfl
@[simp] theorem exec_eorIzx (b : Byte) (s : State) : exec (.eorIzx b) s = logical (· ^^^ ·) (.memory (.izx b)) s := rfl
@[simp] theorem exec_eorIzy (b : Byte) (s : State) : exec (.eorIzy b) s = logical (· ^^^ ·) (.memory (.izy b)) s := rfl
@[simp] theorem exec_aslZp (b : Byte) (s : State) : exec (.aslZp b) s = shift (fun _ v => asl8 v) (.memory (.zp b)) s := rfl
@[simp] theorem exec_aslZpx (b : Byte) (s : State) : exec (.aslZpx b) s = shift (fun _ v => asl8 v) (.memory (.zpx b)) s := rfl
@[simp] theorem exec_aslAbs (a : Address) (s : State) : exec (.aslAbs a) s = shift (fun _ v => asl8 v) (.memory (.abs a)) s := rfl
@[simp] theorem exec_aslAbx (a : Address) (s : State) : exec (.aslAbx a) s = shift (fun _ v => asl8 v) (.memory (.abx a)) s := rfl
@[simp] theorem exec_aslAcc (s : State) : exec .aslAcc s = shift (fun _ v => asl8 v) .accumulator s := rfl
@[simp] theorem exec_lsrZp (b : Byte) (s : State) : exec (.lsrZp b) s = shift (fun _ v => lsr8 v) (.memory (.zp b)) s := rfl
@[simp] theorem exec_lsrZpx (b : Byte) (s : State) : exec (.lsrZpx b) s = shift (fun _ v => lsr8 v) (.memory (.zpx b)) s := rfl
@[simp] theorem exec_lsrAbs (a : Address) (s : State) : exec (.lsrAbs a) s = shift (fun _ v => lsr8 v) (.memory (.abs a)) s := rfl
@[simp] theorem exec_lsrAbx (a : Address) (s : State) : exec (.lsrAbx a) s = shift (fun _ v => lsr8 v) (.memory (.abx a)) s := rfl
@[simp] theorem exec_lsrAcc (s : State) : exec .lsrAcc s = shift (fun _ v => lsr8 v) .accumulator s := rfl
@[simp] theorem exec_rolZp (b : Byte) (s : State) : exec (.rolZp b) s = shift (fun cin v => rol8 v cin) (.memory (.zp b)) s := rfl
@[simp] theorem exec_rolZpx (b : Byte) (s : State) : exec (.rolZpx b) s = shift (fun cin v => rol8 v cin) (.memory (.zpx b)) s := rfl
@[simp] theorem exec_rolAbs (a : Address) (s : State) : exec (.rolAbs a) s = shift (fun cin v => rol8 v cin) (.memory (.abs a)) s := rfl
@[simp] theorem exec_rolAbx (a : Address) (s : State) : exec (.rolAbx a) s = shift (fun cin v => rol8 v cin) (.memory (.abx a)) s := rfl
@[simp] theorem exec_rolAcc (s : State) : exec .rolAcc s = shift (fun cin v => rol8 v cin) .accumulator s := rfl
@[simp] theorem exec_rorZp (b : Byte) (s : State) : exec (.rorZp b) s = shift (fun cin v => ror8 v cin) (.memory (.zp b)) s := rfl
@[simp] theorem exec_rorZpx (b : Byte) (s : State) : exec (.rorZpx b) s = shift (fun cin v => ror8 v cin) (.memory (.zpx b)) s := rfl
@[simp] theorem exec_rorAbs (a : Address) (s : State) : exec (.rorAbs a) s = shift (fun cin v => ror8 v cin) (.memory (.abs a)) s := rfl
@[simp] theorem exec_rorAbx (a : Address) (s : State) : exec (.rorAbx a) s = shift (fun cin v => ror8 v cin) (.memory (.abx a)) s := rfl
@[simp] theorem exec_rorAcc (s : State) : exec .rorAcc s = shift (fun cin v => ror8 v cin) .accumulator s := rfl
@[simp] theorem exec_incZp (b : Byte) (s : State) : exec (.incZp b) s = modify (· + 1) (.zp b) s := rfl
@[simp] theorem exec_incZpx (b : Byte) (s : State) : exec (.incZpx b) s = modify (· + 1) (.zpx b) s := rfl
@[simp] theorem exec_incAbs (a : Address) (s : State) : exec (.incAbs a) s = modify (· + 1) (.abs a) s := rfl
@[simp] theorem exec_incAbx (a : Address) (s : State) : exec (.incAbx a) s = modify (· + 1) (.abx a) s := rfl
@[simp] theorem exec_decZp (b : Byte) (s : State) : exec (.decZp b) s = modify (· - 1) (.zp b) s := rfl
@[simp] theorem exec_decZpx (b : Byte) (s : State) : exec (.decZpx b) s = modify (· - 1) (.zpx b) s := rfl
@[simp] theorem exec_decAbs (a : Address) (s : State) : exec (.decAbs a) s = modify (· - 1) (.abs a) s := rfl
@[simp] theorem exec_decAbx (a : Address) (s : State) : exec (.decAbx a) s = modify (· - 1) (.abx a) s := rfl
@[simp] theorem exec_inx (s : State) : exec .inx s = modifyReg (· + 1) .x s := rfl
@[simp] theorem exec_iny (s : State) : exec .iny s = modifyReg (· + 1) .y s := rfl
@[simp] theorem exec_dex (s : State) : exec .dex s = modifyReg (· - 1) .x s := rfl
@[simp] theorem exec_dey (s : State) : exec .dey s = modifyReg (· - 1) .y s := rfl
@[simp] theorem exec_bitZp (b : Byte) (s : State) : exec (.bitZp b) s = bitTest (.zp b) s := rfl
@[simp] theorem exec_bitAbs (a : Address) (s : State) : exec (.bitAbs a) s = bitTest (.abs a) s := rfl
@[simp] theorem exec_bcc (d : Byte) (s : State) : exec (.bcc d) s = branch (!s.flags.c) d s := rfl
@[simp] theorem exec_bcs (d : Byte) (s : State) : exec (.bcs d) s = branch s.flags.c d s := rfl
@[simp] theorem exec_beq (d : Byte) (s : State) : exec (.beq d) s = branch s.flags.z d s := rfl
@[simp] theorem exec_bne (d : Byte) (s : State) : exec (.bne d) s = branch (!s.flags.z) d s := rfl
@[simp] theorem exec_bmi (d : Byte) (s : State) : exec (.bmi d) s = branch s.flags.n d s := rfl
@[simp] theorem exec_bpl (d : Byte) (s : State) : exec (.bpl d) s = branch (!s.flags.n) d s := rfl
@[simp] theorem exec_bvc (d : Byte) (s : State) : exec (.bvc d) s = branch (!s.flags.v) d s := rfl
@[simp] theorem exec_bvs (d : Byte) (s : State) : exec (.bvs d) s = branch s.flags.v d s := rfl
@[simp] theorem exec_jmpAbs (a : Address) (s : State) : exec (.jmpAbs a) s = .next (s.setPc a) := rfl
@[simp] theorem exec_jmpInd (p : Address) (s : State) : exec (.jmpInd p) s = execJmpInd p s := rfl
@[simp] theorem exec_jsr (a : Address) (s : State) : exec (.jsr a) s = execJsr a s := rfl
@[simp] theorem exec_rts (s : State) : exec .rts s = execRts s := rfl
@[simp] theorem exec_pha (s : State) : exec .pha s = .next (s.push s.a) := rfl
@[simp] theorem exec_pla (s : State) : exec .pla s = execPla s := rfl
@[simp] theorem exec_php (s : State) : exec .php s = .next (s.push (s.flags.pack ||| 0x30)) := rfl
@[simp] theorem exec_plp (s : State) : exec .plp s = execPlp s := rfl
@[simp] theorem exec_nop (s : State) : exec .nop s = .next s := rfl
@[simp] theorem exec_clc (s : State) : exec .clc s = .next (s.setFlags { s.flags with c := false }) := rfl
@[simp] theorem exec_sec (s : State) : exec .sec s = .next (s.setFlags { s.flags with c := true }) := rfl
@[simp] theorem exec_cli (s : State) : exec .cli s = .next (s.setFlags { s.flags with i := false }) := rfl
@[simp] theorem exec_sei (s : State) : exec .sei s = .next (s.setFlags { s.flags with i := true }) := rfl
@[simp] theorem exec_clv (s : State) : exec .clv s = .next (s.setFlags { s.flags with v := false }) := rfl
@[simp] theorem exec_cld (s : State) : exec .cld s = .next (s.setFlags { s.flags with d := false }) := rfl
@[simp] theorem exec_sed (s : State) : exec .sed s = .next (s.setFlags { s.flags with d := true }) := rfl

end Sys2Proof.Machine
end

