-- ==== Sys2Proof/Laws/Shape.lean ====
section
/-! SUPPORT. The inversion of `exec`: every instruction is one of a few shapes, said once with its mnemonic and its
operand, so that a proof over all instructions has one case for each shape. -/

namespace Sys2Proof.Machine

/-- The result of an instruction, by shape. -/
inductive Shape (i : Instr) (s : State) : Result → Prop where
  | load (r : Reg) (src : Source) (hm : (i.mnemonic, r) ∈ [(Mnemonic.lda, Reg.a), (.ldx, .x), (.ldy, .y)])
      (ho : i.operand.source? = some src) (hn : i.mode ≠ .acc) : Shape i s (load r src s)
  | store (r : Reg) (o : MemOperand) (hm : (i.mnemonic, r) ∈ [(Mnemonic.sta, Reg.a), (.stx, .x), (.sty, .y)])
      (ho : i.operand = .memory o) : Shape i s (store r o s)
  | transfer (src dst : Reg)
      (hm : (i.mnemonic, src, dst) ∈
        [(Mnemonic.tax, Reg.a, Reg.x), (.tay, .a, .y), (.txa, .x, .a), (.tya, .y, .a), (.tsx, .sp, .x)])
      (ho : i.operand = .implied) : Shape i s (transfer src dst s)
  | txs (hi : i = .txs) : Shape i s (.next (s.setReg .sp s.x))
  | adc (src : Source) (hm : i.mnemonic = .adc) (ho : i.operand.source? = some src) (hn : i.mode ≠ .acc) :
      Shape i s (addCarry src s)
  | sbc (src : Source) (hm : i.mnemonic = .sbc) (ho : i.operand.source? = some src) (hn : i.mode ≠ .acc) :
      Shape i s (subCarry src s)
  | compare (r : Reg) (src : Source) (hm : (i.mnemonic, r) ∈ [(Mnemonic.cmp, Reg.a), (.cpx, .x), (.cpy, .y)])
      (ho : i.operand.source? = some src) (hn : i.mode ≠ .acc) : Shape i s (compare r src s)
  | logical (op : Byte → Byte → Byte) (src : Source)
      (hm : i.mnemonic = .and ∧ op = (· &&& ·) ∨ i.mnemonic = .ora ∧ op = (· ||| ·) ∨
        i.mnemonic = .eor ∧ op = (· ^^^ ·))
      (ho : i.operand.source? = some src) (hn : i.mode ≠ .acc) : Shape i s (logical op src s)
  | shift (op : Bool → Byte → Shifted) (t : Target)
      (hm : i.mnemonic = .asl ∧ op = (fun _ v => asl8 v) ∨ i.mnemonic = .lsr ∧ op = (fun _ v => lsr8 v) ∨
        i.mnemonic = .rol ∧ op = (fun cin v => rol8 v cin) ∨ i.mnemonic = .ror ∧ op = (fun cin v => ror8 v cin))
      (ho : i.operand.target? = some t) : Shape i s (shift op t s)
  | modify (op : Byte → Byte) (o : MemOperand)
      (hm : i.mnemonic = .inc ∧ op = (· + 1) ∨ i.mnemonic = .dec ∧ op = (· - 1))
      (ho : i.operand = .memory o) : Shape i s (modify op o s)
  | modifyReg (op : Byte → Byte) (r : Reg)
      (hm : i = .inx ∧ r = .x ∧ op = (· + 1) ∨ i = .iny ∧ r = .y ∧ op = (· + 1) ∨
        i = .dex ∧ r = .x ∧ op = (· - 1) ∨ i = .dey ∧ r = .y ∧ op = (· - 1)) : Shape i s (modifyReg op r s)
  | bit (o : MemOperand) (hm : i.mnemonic = .bit) (ho : i.operand = .memory o) : Shape i s (bitTest o s)
  | branch (c : Bool) (d : Byte)
      (hm : (i.mnemonic, c) ∈ [(Mnemonic.bcc, !s.flags.c), (.bcs, s.flags.c), (.beq, s.flags.z), (.bne, !s.flags.z),
        (.bmi, s.flags.n), (.bpl, !s.flags.n), (.bvc, !s.flags.v), (.bvs, s.flags.v)])
      (ho : i.operand = .relative d) : Shape i s (branch c d s)
  | jmpAbs (a : Address) (hi : i = .jmpAbs a) : Shape i s (.next (s.setPc a))
  | jmpInd (p : Address) (hi : i = .jmpInd p) : Shape i s (execJmpInd p s)
  | jsr (a : Address) (hi : i = .jsr a) : Shape i s (execJsr a s)
  | rts (hi : i = .rts) : Shape i s (execRts s)
  | pha (hi : i = .pha) : Shape i s (.next (s.push s.a))
  | pla (hi : i = .pla) : Shape i s (execPla s)
  | php (hi : i = .php) : Shape i s (.next (s.push (s.flags.pack ||| 0x30)))
  | plp (hi : i = .plp) : Shape i s (execPlp s)
  | nop (hi : i = .nop) : Shape i s (.next s)
  | flag (f : Flags)
      (hm : (i, f) ∈ [(Instr.clc, { s.flags with c := false }), (.sec, { s.flags with c := true }),
        (.cli, { s.flags with i := false }), (.sei, { s.flags with i := true }), (.clv, { s.flags with v := false }),
        (.cld, { s.flags with d := false }), (.sed, { s.flags with d := true })]) :
      Shape i s (.next (s.setFlags f))

/-- Every instruction has its shape. -/
theorem exec_shape (i : Instr) (s : State) : Shape i s (exec i s) := by
  cases i
  case ldaImm | ldaZp | ldaZpx | ldaAbs | ldaAbx | ldaAby | ldaIzx | ldaIzy | ldxImm | ldxZp | ldxZpy | ldxAbs |
      ldxAby | ldyImm | ldyZp | ldyZpx | ldyAbs | ldyAbx =>
    exact .load _ _ (by simp [Instr.mnemonic]) rfl nofun
  case staZp | staZpx | staAbs | staAbx | staAby | staIzx | staIzy | stxZp | stxZpy | stxAbs | styZp | styZpx |
      styAbs =>
    exact .store _ _ (by simp [Instr.mnemonic]) rfl
  case tax | tay | txa | tya | tsx =>
    exact .transfer _ _ (by simp [Instr.mnemonic]) rfl
  case txs =>
    exact .txs rfl
  case adcImm | adcZp | adcZpx | adcAbs | adcAbx | adcAby | adcIzx | adcIzy =>
    exact .adc _ rfl rfl nofun
  case sbcImm | sbcZp | sbcZpx | sbcAbs | sbcAbx | sbcAby | sbcIzx | sbcIzy =>
    exact .sbc _ rfl rfl nofun
  case cmpImm | cmpZp | cmpZpx | cmpAbs | cmpAbx | cmpAby | cmpIzx | cmpIzy | cpxImm | cpxZp | cpxAbs | cpyImm |
      cpyZp | cpyAbs =>
    exact .compare _ _ (by simp [Instr.mnemonic]) rfl nofun
  case andImm | andZp | andZpx | andAbs | andAbx | andAby | andIzx | andIzy =>
    exact .logical _ _ (.inl ⟨rfl, rfl⟩) rfl nofun
  case oraImm | oraZp | oraZpx | oraAbs | oraAbx | oraAby | oraIzx | oraIzy =>
    exact .logical _ _ (.inr (.inl ⟨rfl, rfl⟩)) rfl nofun
  case eorImm | eorZp | eorZpx | eorAbs | eorAbx | eorAby | eorIzx | eorIzy =>
    exact .logical _ _ (.inr (.inr ⟨rfl, rfl⟩)) rfl nofun
  case aslZp | aslZpx | aslAbs | aslAbx | aslAcc =>
    simp only [exec_aslZp, exec_aslZpx, exec_aslAbs, exec_aslAbx, exec_aslAcc]
    exact .shift (fun _ v => asl8 v) _ (.inl ⟨rfl, rfl⟩) rfl
  case lsrZp | lsrZpx | lsrAbs | lsrAbx | lsrAcc =>
    simp only [exec_lsrZp, exec_lsrZpx, exec_lsrAbs, exec_lsrAbx, exec_lsrAcc]
    exact .shift (fun _ v => lsr8 v) _ (.inr (.inl ⟨rfl, rfl⟩)) rfl
  case rolZp | rolZpx | rolAbs | rolAbx | rolAcc =>
    simp only [exec_rolZp, exec_rolZpx, exec_rolAbs, exec_rolAbx, exec_rolAcc]
    exact .shift (fun cin v => rol8 v cin) _ (.inr (.inr (.inl ⟨rfl, rfl⟩))) rfl
  case rorZp | rorZpx | rorAbs | rorAbx | rorAcc =>
    simp only [exec_rorZp, exec_rorZpx, exec_rorAbs, exec_rorAbx, exec_rorAcc]
    exact .shift (fun cin v => ror8 v cin) _ (.inr (.inr (.inr ⟨rfl, rfl⟩))) rfl
  case incZp | incZpx | incAbs | incAbx =>
    exact .modify _ _ (.inl ⟨rfl, rfl⟩) rfl
  case decZp | decZpx | decAbs | decAbx =>
    exact .modify _ _ (.inr ⟨rfl, rfl⟩) rfl
  case inx =>
    exact .modifyReg _ _ (.inl ⟨rfl, rfl, rfl⟩)
  case iny =>
    exact .modifyReg _ _ (.inr (.inl ⟨rfl, rfl, rfl⟩))
  case dex =>
    exact .modifyReg _ _ (.inr (.inr (.inl ⟨rfl, rfl, rfl⟩)))
  case dey =>
    exact .modifyReg _ _ (.inr (.inr (.inr ⟨rfl, rfl, rfl⟩)))
  case bitZp | bitAbs =>
    exact .bit _ rfl rfl
  case bcc | bcs | beq | bne | bmi | bpl | bvc | bvs =>
    exact .branch _ _ (by simp [Instr.mnemonic]) rfl
  case jmpAbs => exact .jmpAbs _ rfl
  case jmpInd => exact .jmpInd _ rfl
  case jsr => exact .jsr _ rfl
  case rts => exact .rts rfl
  case pha => exact .pha rfl
  case pla => exact .pla rfl
  case php => exact .php rfl
  case plp => exact .plp rfl
  case nop => exact .nop rfl
  case clc | sec | cli | sei | clv | cld | sed =>
    exact .flag _ (by simp)

end Sys2Proof.Machine
end

