-- ==== Sys2Proof/Laws/Accesses.lean ====
section
/-! SUPPORT. What the list of accesses says of memory: an operation that only reads leaves storage, and after any
instruction every byte it wrote is the one in storage (20_memory.md R39, R41). One lemma for each operation, so that a
proof about an instruction cites them and unfolds nothing. -/

namespace Sys2Proof.Machine

/-- From `s` to `t` memory is only read: storage and windows are the same, and the accesses added are reads. -/
structure ReadsOnly (s t : State) : Prop where
  mem : t.mem = s.mem
  external : t.external = s.external
  accesses : ∃ l, t.accesses = s.accesses ++ l ∧ ∀ e ∈ l, e.kind = .read

/-- From `s` to `t` accesses are added, and each write among them, where there is storage, is what storage holds. -/
def WritesLand (s t : State) : Prop :=
  ∃ l, t.accesses = s.accesses ++ l ∧
    ∀ e ∈ l, e.kind = .write → s.mem.wf = true → s.isExternal e.addr = false → t.byteAt e.addr = e.value

theorem ReadsOnly.of_same {s t : State} (hm : t.mem = s.mem) (hx : t.external = s.external)
    (ha : t.accesses = s.accesses) : ReadsOnly s t :=
  ⟨hm, hx, [], by rw [ha, List.append_nil], nofun⟩

theorem ReadsOnly.refl (s : State) : ReadsOnly s s := .of_same rfl rfl rfl

theorem ReadsOnly.trans {s t u : State} (h : ReadsOnly s t) (k : ReadsOnly t u) : ReadsOnly s u := by
  obtain ⟨l, hl, hr⟩ := h.accesses
  obtain ⟨m, hm, kr⟩ := k.accesses
  refine ⟨k.mem.trans h.mem, k.external.trans h.external, l ++ m, by rw [hm, hl, List.append_assoc], fun e he => ?_⟩
  exact (List.mem_append.1 he).elim (hr e) (kr e)

/-- An operation that only reads writes nothing. -/
theorem ReadsOnly.lands {s t : State} (h : ReadsOnly s t) : WritesLand s t := by
  obtain ⟨l, hl, hr⟩ := h.accesses
  exact ⟨l, hl, fun e he hw => by rw [hr e he] at hw; cases hw⟩

/-- Reads after the writes leave what the writes stored. -/
theorem WritesLand.trans_reads {s t u : State} (h : WritesLand s t) (k : ReadsOnly t u) : WritesLand s u := by
  obtain ⟨l, hl, hw⟩ := h
  obtain ⟨m, hm, kr⟩ := k.accesses
  refine ⟨l ++ m, by rw [hm, hl, List.append_assoc], fun e he hk hwf hx => ?_⟩
  rcases List.mem_append.1 he with he | he
  · simpa [State.byteAt, k.mem] using hw e he hk hwf hx
  · rw [kr e he] at hk; cases hk

/-! ### The named operations -/

theorem reads_setReg (s : State) (r : Reg) (v : Byte) : ReadsOnly s (s.setReg r v) := by
  cases r <;> exact .of_same rfl rfl rfl

theorem reads_setPc (s : State) (p : Address) : ReadsOnly s (s.setPc p) := .of_same rfl rfl rfl

theorem reads_setFlags (s : State) (f : Flags) : ReadsOnly s (s.setFlags f) := .of_same rfl rfl rfl

theorem reads_busRead (s : State) (p : Address) : ReadsOnly s (s.busRead p).2 :=
  ⟨rfl, rfl, _, rfl, fun e he => by cases List.mem_singleton.1 he; rfl⟩

theorem reads_read16 (s : State) (lo hi : Address) : ReadsOnly s (s.read16 lo hi).2 :=
  (reads_busRead s lo).trans (reads_busRead _ hi)

theorem reads_resolve (s : State) (o : MemOperand) : ReadsOnly s (s.resolve o).2 := by
  cases o <;> first | exact ReadsOnly.refl s | exact reads_read16 s _ _

theorem reads_loadOperand (s : State) (src : Source) : ReadsOnly s (s.loadOperand src).2 := by
  cases src with
  | immediate v => exact ReadsOnly.refl s
  | memory o => exact (reads_resolve s o).trans (reads_busRead _ _)

theorem reads_pull (s : State) : ReadsOnly s s.pull.2 := (reads_setReg s .sp _).trans (reads_busRead _ _)

/-- A write after reads lands. -/
theorem ReadsOnly.busWrite {s t : State} (h : ReadsOnly s t) (p : Address) (v : Byte) :
    WritesLand s (t.busWrite p v) := by
  obtain ⟨l, hl, hr⟩ := h.accesses
  refine ⟨l ++ [{ kind := .write, addr := p, value := v }], by rw [State.busWrite_accesses, hl, List.append_assoc],
    fun e he hk hwf hx => ?_⟩
  rcases List.mem_append.1 he with he | he
  · rw [hr e he] at hk; cases hk
  · cases List.mem_singleton.1 he
    exact State.byteAt_busWrite_self (by rwa [h.mem]) v (by rwa [State.isExternal_congr h.external])

theorem lands_push (s : State) (v : Byte) : WritesLand s (s.push v) :=
  ((ReadsOnly.refl s).busWrite _ _).trans_reads (reads_setReg _ .sp _)

/-- Neighbouring stack addresses differ, at the wrap too (R14, R15). -/
theorem stackAddr_ne_pred : ∀ sp : Byte, stackAddr sp ≠ stackAddr (sp - 1) := by decide

/-- Two pushes land in two bytes. -/
theorem lands_push_push (s : State) (v w : Byte) : WritesLand s ((s.push v).push w) := by
  refine ⟨[{ kind := .write, addr := stackAddr s.sp, value := v },
    { kind := .write, addr := stackAddr (s.sp - 1), value := w }], List.append_assoc _ _ _, fun e he _ hwf hx => ?_⟩
  rcases List.mem_cons.1 he with rfl | he
  · exact (State.byteAt_busWrite_ne (s.push v) w (stackAddr_ne_pred s.sp)).trans (State.byteAt_busWrite_self hwf v hx)
  · cases List.mem_singleton.1 he
    exact State.byteAt_busWrite_self (s := s.push v) (State.push_wf hwf v) w hx

/-! ### Every instruction -/

/-- Whatever an instruction writes is what storage then holds, and its accesses follow those before it. -/
theorem exec_writes_land {i : Instr} {s t : State} (h : exec i s = .next t) : WritesLand s t := by
  have hs := exec_shape i s
  rw [h] at hs
  generalize hr : (Host.Outcome.next t : Result) = r at hs
  cases hs
  case load | adc | sbc | logical =>
    cases hr
    exact (((reads_loadOperand s _).trans (reads_setReg _ _ _)).trans (reads_setFlags _ _)).lands
  case store => cases hr; exact (reads_resolve s _).busWrite _ _
  case transfer | modifyReg => cases hr; exact ((reads_setReg s _ _).trans (reads_setFlags _ _)).lands
  case compare | bit => cases hr; exact ((reads_loadOperand s _).trans (reads_setFlags _ _)).lands
  case shift tgt _ _ =>
    cases tgt with
    | accumulator => cases hr; exact ((reads_setReg s .a _).trans (reads_setFlags _ _)).lands
    | memory o =>
      cases hr
      exact (((reads_resolve s o).trans (reads_busRead _ _)).busWrite _ _).trans_reads (reads_setFlags _ _)
  case modify =>
    cases hr
    exact (((reads_resolve s _).trans (reads_busRead _ _)).busWrite _ _).trans_reads (reads_setFlags _ _)
  case branch c d _ _ =>
    cases c <;> cases hr
    · exact (ReadsOnly.refl s).lands
    · exact (reads_setPc s _).lands
  case txs => cases hr; exact (reads_setReg s .sp _).lands
  case flag => cases hr; exact (reads_setFlags s _).lands
  case nop => cases hr; exact (ReadsOnly.refl s).lands
  case pha | php => cases hr; exact lands_push s _
  case pla => cases hr; exact (((reads_pull s).trans (reads_setReg _ .a _)).trans (reads_setFlags _ _)).lands
  case plp => cases hr; exact ((reads_pull s).trans (reads_setFlags _ _)).lands
  case rts => cases hr; exact (((reads_pull s).trans (reads_pull _)).trans (reads_setPc _ _)).lands
  case jsr => cases hr; exact (lands_push_push s _ _).trans_reads (reads_setPc _ _)
  case jmpAbs => cases hr; exact (reads_setPc s _).lands
  case jmpInd => cases hr; exact ((reads_read16 s _ _).trans (reads_setPc _ _)).lands

end Sys2Proof.Machine
end

