-- ==== Sys2Proof/Laws/Bits.lean ====
section
/-! SUPPORT. What the byte-order and bit-field helpers are as numbers, and what the status byte packs. -/

namespace Sys2Proof

/-- `hi:lo` as a number (R7). -/
theorem toNat_word (hi lo : Byte) : (word hi lo).toNat = hi.toNat * 256 + lo.toNat := by
  simp only [word, BitVec.toNat_append]
  rw [← Nat.shiftLeft_add_eq_or_of_lt lo.isLt, Nat.shiftLeft_eq]

theorem toNat_lowByte (a : Address) : (lowByte a).toNat = a.toNat % 256 := by
  simp [lowByte, BitVec.extractLsb'_toNat]

theorem toNat_highByte (a : Address) : (highByte a).toNat = a.toNat / 256 := by
  have := a.isLt
  simp only [highByte, BitVec.extractLsb'_toNat, Nat.shiftRight_eq_div_pow]
  omega

/-- An address is its high byte and its low byte. -/
@[simp] theorem word_highByte_lowByte (a : Address) : word (highByte a) (lowByte a) = a := by
  apply BitVec.eq_of_toNat_eq
  rw [toNat_word, toNat_lowByte, toNat_highByte]
  omega

@[simp] theorem lowByte_word (hi lo : Byte) : lowByte (word hi lo) = lo := by
  have := lo.isLt
  apply BitVec.eq_of_toNat_eq
  rw [toNat_lowByte, toNat_word]
  omega

@[simp] theorem highByte_word (hi lo : Byte) : highByte (word hi lo) = hi := by
  have := lo.isLt
  apply BitVec.eq_of_toNat_eq
  rw [toNat_highByte, toNat_word]
  omega

theorem toNat_zext16 (b : Byte) : (zext16 b).toNat = b.toNat := by
  have := b.isLt
  simp only [zext16, BitVec.toNat_setWidth]
  omega

/-- Bit 7 of a byte as a comparison. -/
theorem bit_seven (v : Byte) : bit v 7 = decide (128 ≤ v.toNat) := by
  have := v.isLt
  simp only [bit, BitVec.getLsbD, Nat.testBit_eq_decide_div_mod_eq]
  congr 1
  apply propext
  omega

/-- Bit 0 of a byte is its parity. -/
theorem bit_zero (v : Byte) : bit v 0 = decide (v.toNat % 2 = 1) := by
  simp [bit, BitVec.getLsbD, Nat.testBit_eq_decide_div_mod_eq]

end Sys2Proof
end

