-- ==== Sys2Proof/Laws/Fetch.lean ====
section
/-! SUPPORT. What a fetch finds, by the entry that the Instruction Table gives the opcode byte. -/

namespace Sys2Proof.Machine

/-- An absent opcode: one read, and `PC` still at it (R54, R56). -/
theorem State.fetchInstr_absent {s : State} (h : tableEntry (s.answer 0 s.pc) = none) :
    s.fetchInstr = .absent (s.answer 0 s.pc) (s.busRead s.pc).2 := by
  simp only [State.fetchInstr, State.busRead_value, h]

/-- An instruction of one byte (R57). -/
theorem State.fetchInstr_plain {s : State} {i : Instr} (h : tableEntry (s.answer 0 s.pc) = some (.plain i)) :
    s.fetchInstr = .instr i ((s.busRead s.pc).2.setPc (s.pc + 1)) := by
  simp only [State.fetchInstr, State.busRead_value, h, State.fetchOperands]

/-- An instruction of two bytes (R57). -/
theorem State.fetchInstr_byte {s : State} {make : Byte → Instr}
    (h : tableEntry (s.answer 0 s.pc) = some (.byteOperand make)) :
    s.fetchInstr = .instr (make (s.answer 1 (s.pc + 1))) ((s.busRead s.pc).2.setPc (s.pc + 1)).fetch8.2 := by
  simp only [State.fetchInstr, State.busRead_value, h, State.fetchOperands, State.fetch8_value, State.answer_setPc,
    State.answer_busRead, State.setPc_pc]

/-- An instruction of three bytes, its operand little-endian (R52, R57). -/
theorem State.fetchInstr_word {s : State} {make : Address → Instr}
    (h : tableEntry (s.answer 0 s.pc) = some (.wordOperand make)) :
    s.fetchInstr = .instr (make (word (s.answer 2 (s.pc + 1 + 1)) (s.answer 1 (s.pc + 1))))
      ((s.busRead s.pc).2.setPc (s.pc + 1)).fetch8.2.fetch8.2 := by
  simp only [State.fetchInstr, State.busRead_value, h, State.fetchOperands, State.answer_setPc,
    State.answer_busRead, State.setPc_pc, State.fetch8]

end Sys2Proof.Machine
end

