-- ==== Sys2Proof/Laws/PerInstr.lean ====
section
/-! SUPPORT. Facts about every instruction as syntax, one lemma for each constructor. -/

namespace Sys2Proof.Laws.Encoding

/-- The instruction is well formed (both checks of WellFormed.lean), the encoder's table has its opcode (R53), and its
encoding is as long as its mode says (R51). -/
def Statement (i : Instr) : Prop :=
  i.wellFormed = true ∧ i.opcode?.isSome = true ∧ (encode i).length = i.length

theorem ldaImm (v : Byte) : Statement (.ldaImm v) := ⟨rfl, rfl, rfl⟩
theorem ldaZp (b : Byte) : Statement (.ldaZp b) := ⟨rfl, rfl, rfl⟩
theorem ldaZpx (b : Byte) : Statement (.ldaZpx b) := ⟨rfl, rfl, rfl⟩
theorem ldaAbs (a : Address) : Statement (.ldaAbs a) := ⟨rfl, rfl, rfl⟩
theorem ldaAbx (a : Address) : Statement (.ldaAbx a) := ⟨rfl, rfl, rfl⟩
theorem ldaAby (a : Address) : Statement (.ldaAby a) := ⟨rfl, rfl, rfl⟩
theorem ldaIzx (b : Byte) : Statement (.ldaIzx b) := ⟨rfl, rfl, rfl⟩
theorem ldaIzy (b : Byte) : Statement (.ldaIzy b) := ⟨rfl, rfl, rfl⟩
theorem ldxImm (v : Byte) : Statement (.ldxImm v) := ⟨rfl, rfl, rfl⟩
theorem ldxZp (b : Byte) : Statement (.ldxZp b) := ⟨rfl, rfl, rfl⟩
theorem ldxZpy (b : Byte) : Statement (.ldxZpy b) := ⟨rfl, rfl, rfl⟩
theorem ldxAbs (a : Address) : Statement (.ldxAbs a) := ⟨rfl, rfl, rfl⟩
theorem ldxAby (a : Address) : Statement (.ldxAby a) := ⟨rfl, rfl, rfl⟩
theorem ldyImm (v : Byte) : Statement (.ldyImm v) := ⟨rfl, rfl, rfl⟩
theorem ldyZp (b : Byte) : Statement (.ldyZp b) := ⟨rfl, rfl, rfl⟩
theorem ldyZpx (b : Byte) : Statement (.ldyZpx b) := ⟨rfl, rfl, rfl⟩
theorem ldyAbs (a : Address) : Statement (.ldyAbs a) := ⟨rfl, rfl, rfl⟩
theorem ldyAbx (a : Address) : Statement (.ldyAbx a) := ⟨rfl, rfl, rfl⟩
theorem staZp (b : Byte) : Statement (.staZp b) := ⟨rfl, rfl, rfl⟩
theorem staZpx (b : Byte) : Statement (.staZpx b) := ⟨rfl, rfl, rfl⟩
theorem staAbs (a : Address) : Statement (.staAbs a) := ⟨rfl, rfl, rfl⟩
theorem staAbx (a : Address) : Statement (.staAbx a) := ⟨rfl, rfl, rfl⟩
theorem staAby (a : Address) : Statement (.staAby a) := ⟨rfl, rfl, rfl⟩
theorem staIzx (b : Byte) : Statement (.staIzx b) := ⟨rfl, rfl, rfl⟩
theorem staIzy (b : Byte) : Statement (.staIzy b) := ⟨rfl, rfl, rfl⟩
theorem stxZp (b : Byte) : Statement (.stxZp b) := ⟨rfl, rfl, rfl⟩
theorem stxZpy (b : Byte) : Statement (.stxZpy b) := ⟨rfl, rfl, rfl⟩
theorem stxAbs (a : Address) : Statement (.stxAbs a) := ⟨rfl, rfl, rfl⟩
theorem styZp (b : Byte) : Statement (.styZp b) := ⟨rfl, rfl, rfl⟩
theorem styZpx (b : Byte) : Statement (.styZpx b) := ⟨rfl, rfl, rfl⟩
theorem styAbs (a : Address) : Statement (.styAbs a) := ⟨rfl, rfl, rfl⟩
theorem tax : Statement .tax := ⟨rfl, rfl, rfl⟩
theorem tay : Statement .tay := ⟨rfl, rfl, rfl⟩
theorem txa : Statement .txa := ⟨rfl, rfl, rfl⟩
theorem tya : Statement .tya := ⟨rfl, rfl, rfl⟩
theorem tsx : Statement .tsx := ⟨rfl, rfl, rfl⟩
theorem txs : Statement .txs := ⟨rfl, rfl, rfl⟩
theorem adcImm (v : Byte) : Statement (.adcImm v) := ⟨rfl, rfl, rfl⟩
theorem adcZp (b : Byte) : Statement (.adcZp b) := ⟨rfl, rfl, rfl⟩
theorem adcZpx (b : Byte) : Statement (.adcZpx b) := ⟨rfl, rfl, rfl⟩
theorem adcAbs (a : Address) : Statement (.adcAbs a) := ⟨rfl, rfl, rfl⟩
theorem adcAbx (a : Address) : Statement (.adcAbx a) := ⟨rfl, rfl, rfl⟩
theorem adcAby (a : Address) : Statement (.adcAby a) := ⟨rfl, rfl, rfl⟩
theorem adcIzx (b : Byte) : Statement (.adcIzx b) := ⟨rfl, rfl, rfl⟩
theorem adcIzy (b : Byte) : Statement (.adcIzy b) := ⟨rfl, rfl, rfl⟩
theorem sbcImm (v : Byte) : Statement (.sbcImm v) := ⟨rfl, rfl, rfl⟩
theorem sbcZp (b : Byte) : Statement (.sbcZp b) := ⟨rfl, rfl, rfl⟩
theorem sbcZpx (b : Byte) : Statement (.sbcZpx b) := ⟨rfl, rfl, rfl⟩
theorem sbcAbs (a : Address) : Statement (.sbcAbs a) := ⟨rfl, rfl, rfl⟩
theorem sbcAbx (a : Address) : Statement (.sbcAbx a) := ⟨rfl, rfl, rfl⟩
theorem sbcAby (a : Address) : Statement (.sbcAby a) := ⟨rfl, rfl, rfl⟩
theorem sbcIzx (b : Byte) : Statement (.sbcIzx b) := ⟨rfl, rfl, rfl⟩
theorem sbcIzy (b : Byte) : Statement (.sbcIzy b) := ⟨rfl, rfl, rfl⟩
theorem cmpImm (v : Byte) : Statement (.cmpImm v) := ⟨rfl, rfl, rfl⟩
theorem cmpZp (b : Byte) : Statement (.cmpZp b) := ⟨rfl, rfl, rfl⟩
theorem cmpZpx (b : Byte) : Statement (.cmpZpx b) := ⟨rfl, rfl, rfl⟩
theorem cmpAbs (a : Address) : Statement (.cmpAbs a) := ⟨rfl, rfl, rfl⟩
theorem cmpAbx (a : Address) : Statement (.cmpAbx a) := ⟨rfl, rfl, rfl⟩
theorem cmpAby (a : Address) : Statement (.cmpAby a) := ⟨rfl, rfl, rfl⟩
theorem cmpIzx (b : Byte) : Statement (.cmpIzx b) := ⟨rfl, rfl, rfl⟩
theorem cmpIzy (b : Byte) : Statement (.cmpIzy b) := ⟨rfl, rfl, rfl⟩
theorem cpxImm (v : Byte) : Statement (.cpxImm v) := ⟨rfl, rfl, rfl⟩
theorem cpxZp (b : Byte) : Statement (.cpxZp b) := ⟨rfl, rfl, rfl⟩
theorem cpxAbs (a : Address) : Statement (.cpxAbs a) := ⟨rfl, rfl, rfl⟩
theorem cpyImm (v : Byte) : Statement (.cpyImm v) := ⟨rfl, rfl, rfl⟩
theorem cpyZp (b : Byte) : Statement (.cpyZp b) := ⟨rfl, rfl, rfl⟩
theorem cpyAbs (a : Address) : Statement (.cpyAbs a) := ⟨rfl, rfl, rfl⟩
theorem andImm (v : Byte) : Statement (.andImm v) := ⟨rfl, rfl, rfl⟩
theorem andZp (b : Byte) : Statement (.andZp b) := ⟨rfl, rfl, rfl⟩
theorem andZpx (b : Byte) : Statement (.andZpx b) := ⟨rfl, rfl, rfl⟩
theorem andAbs (a : Address) : Statement (.andAbs a) := ⟨rfl, rfl, rfl⟩
theorem andAbx (a : Address) : Statement (.andAbx a) := ⟨rfl, rfl, rfl⟩
theorem andAby (a : Address) : Statement (.andAby a) := ⟨rfl, rfl, rfl⟩
theorem andIzx (b : Byte) : Statement (.andIzx b) := ⟨rfl, rfl, rfl⟩
theorem andIzy (b : Byte) : Statement (.andIzy b) := ⟨rfl, rfl, rfl⟩
theorem oraImm (v : Byte) : Statement (.oraImm v) := ⟨rfl, rfl, rfl⟩
theorem oraZp (b : Byte) : Statement (.oraZp b) := ⟨rfl, rfl, rfl⟩
theorem oraZpx (b : Byte) : Statement (.oraZpx b) := ⟨rfl, rfl, rfl⟩
theorem oraAbs (a : Address) : Statement (.oraAbs a) := ⟨rfl, rfl, rfl⟩
theorem oraAbx (a : Address) : Statement (.oraAbx a) := ⟨rfl, rfl, rfl⟩
theorem oraAby (a : Address) : Statement (.oraAby a) := ⟨rfl, rfl, rfl⟩
theorem oraIzx (b : Byte) : Statement (.oraIzx b) := ⟨rfl, rfl, rfl⟩
theorem oraIzy (b : Byte) : Statement (.oraIzy b) := ⟨rfl, rfl, rfl⟩
theorem eorImm (v : Byte) : Statement (.eorImm v) := ⟨rfl, rfl, rfl⟩
theorem eorZp (b : Byte) : Statement (.eorZp b) := ⟨rfl, rfl, rfl⟩
theorem eorZpx (b : Byte) : Statement (.eorZpx b) := ⟨rfl, rfl, rfl⟩
theorem eorAbs (a : Address) : Statement (.eorAbs a) := ⟨rfl, rfl, rfl⟩
theorem eorAbx (a : Address) : Statement (.eorAbx a) := ⟨rfl, rfl, rfl⟩
theorem eorAby (a : Address) : Statement (.eorAby a) := ⟨rfl, rfl, rfl⟩
theorem eorIzx (b : Byte) : Statement (.eorIzx b) := ⟨rfl, rfl, rfl⟩
theorem eorIzy (b : Byte) : Statement (.eorIzy b) := ⟨rfl, rfl, rfl⟩
theorem aslZp (b : Byte) : Statement (.aslZp b) := ⟨rfl, rfl, rfl⟩
theorem aslZpx (b : Byte) : Statement (.aslZpx b) := ⟨rfl, rfl, rfl⟩
theorem aslAbs (a : Address) : Statement (.aslAbs a) := ⟨rfl, rfl, rfl⟩
theorem aslAbx (a : Address) : Statement (.aslAbx a) := ⟨rfl, rfl, rfl⟩
theorem aslAcc : Statement .aslAcc := ⟨rfl, rfl, rfl⟩
theorem lsrZp (b : Byte) : Statement (.lsrZp b) := ⟨rfl, rfl, rfl⟩
theorem lsrZpx (b : Byte) : Statement (.lsrZpx b) := ⟨rfl, rfl, rfl⟩
theorem lsrAbs (a : Address) : Statement (.lsrAbs a) := ⟨rfl, rfl, rfl⟩
theorem lsrAbx (a : Address) : Statement (.lsrAbx a) := ⟨rfl, rfl, rfl⟩
theorem lsrAcc : Statement .lsrAcc := ⟨rfl, rfl, rfl⟩
theorem rolZp (b : Byte) : Statement (.rolZp b) := ⟨rfl, rfl, rfl⟩
theorem rolZpx (b : Byte) : Statement (.rolZpx b) := ⟨rfl, rfl, rfl⟩
theorem rolAbs (a : Address) : Statement (.rolAbs a) := ⟨rfl, rfl, rfl⟩
theorem rolAbx (a : Address) : Statement (.rolAbx a) := ⟨rfl, rfl, rfl⟩
theorem rolAcc : Statement .rolAcc := ⟨rfl, rfl, rfl⟩
theorem rorZp (b : Byte) : Statement (.rorZp b) := ⟨rfl, rfl, rfl⟩
theorem rorZpx (b : Byte) : Statement (.rorZpx b) := ⟨rfl, rfl, rfl⟩
theorem rorAbs (a : Address) : Statement (.rorAbs a) := ⟨rfl, rfl, rfl⟩
theorem rorAbx (a : Address) : Statement (.rorAbx a) := ⟨rfl, rfl, rfl⟩
theorem rorAcc : Statement .rorAcc := ⟨rfl, rfl, rfl⟩
theorem incZp (b : Byte) : Statement (.incZp b) := ⟨rfl, rfl, rfl⟩
theorem incZpx (b : Byte) : Statement (.incZpx b) := ⟨rfl, rfl, rfl⟩
theorem incAbs (a : Address) : Statement (.incAbs a) := ⟨rfl, rfl, rfl⟩
theorem incAbx (a : Address) : Statement (.incAbx a) := ⟨rfl, rfl, rfl⟩
theorem decZp (b : Byte) : Statement (.decZp b) := ⟨rfl, rfl, rfl⟩
theorem decZpx (b : Byte) : Statement (.decZpx b) := ⟨rfl, rfl, rfl⟩
theorem decAbs (a : Address) : Statement (.decAbs a) := ⟨rfl, rfl, rfl⟩
theorem decAbx (a : Address) : Statement (.decAbx a) := ⟨rfl, rfl, rfl⟩
theorem inx : Statement .inx := ⟨rfl, rfl, rfl⟩
theorem iny : Statement .iny := ⟨rfl, rfl, rfl⟩
theorem dex : Statement .dex := ⟨rfl, rfl, rfl⟩
theorem dey : Statement .dey := ⟨rfl, rfl, rfl⟩
theorem bitZp (b : Byte) : Statement (.bitZp b) := ⟨rfl, rfl, rfl⟩
theorem bitAbs (a : Address) : Statement (.bitAbs a) := ⟨rfl, rfl, rfl⟩
theorem bcc (d : Byte) : Statement (.bcc d) := ⟨rfl, rfl, rfl⟩
theorem bcs (d : Byte) : Statement (.bcs d) := ⟨rfl, rfl, rfl⟩
theorem beq (d : Byte) : Statement (.beq d) := ⟨rfl, rfl, rfl⟩
theorem bne (d : Byte) : Statement (.bne d) := ⟨rfl, rfl, rfl⟩
theorem bmi (d : Byte) : Statement (.bmi d) := ⟨rfl, rfl, rfl⟩
theorem bpl (d : Byte) : Statement (.bpl d) := ⟨rfl, rfl, rfl⟩
theorem bvc (d : Byte) : Statement (.bvc d) := ⟨rfl, rfl, rfl⟩
theorem bvs (d : Byte) : Statement (.bvs d) := ⟨rfl, rfl, rfl⟩
theorem jmpAbs (a : Address) : Statement (.jmpAbs a) := ⟨rfl, rfl, rfl⟩
theorem jmpInd (p : Address) : Statement (.jmpInd p) := ⟨rfl, rfl, rfl⟩
theorem jsr (a : Address) : Statement (.jsr a) := ⟨rfl, rfl, rfl⟩
theorem rts : Statement .rts := ⟨rfl, rfl, rfl⟩
theorem pha : Statement .pha := ⟨rfl, rfl, rfl⟩
theorem pla : Statement .pla := ⟨rfl, rfl, rfl⟩
theorem php : Statement .php := ⟨rfl, rfl, rfl⟩
theorem plp : Statement .plp := ⟨rfl, rfl, rfl⟩
theorem nop : Statement .nop := ⟨rfl, rfl, rfl⟩
theorem clc : Statement .clc := ⟨rfl, rfl, rfl⟩
theorem sec : Statement .sec := ⟨rfl, rfl, rfl⟩
theorem cli : Statement .cli := ⟨rfl, rfl, rfl⟩
theorem sei : Statement .sei := ⟨rfl, rfl, rfl⟩
theorem clv : Statement .clv := ⟨rfl, rfl, rfl⟩
theorem cld : Statement .cld := ⟨rfl, rfl, rfl⟩
theorem sed : Statement .sed := ⟨rfl, rfl, rfl⟩

end Sys2Proof.Laws.Encoding
end

