-- ==== Sys2Proof/Tests/Slice0.lean ====
section
/-! SUPPORT. The model's own tests. Every expected value is taken from spec/: the words from the Instruction Table of
30_encoding.md R53, the steps from 95_test_vectors.md sections 2 and 3. Then the smoke test of well-formedness, and for
every statement with hypotheses a state that meets them. -/

namespace Sys2Proof.Tests
open Sys2Proof.Machine

/-- Store bytes at ascending addresses, which wrap. -/
def storeBytes (m : Memory) (p : Address) : List Byte → Memory
  | [] => m
  | b :: rest => storeBytes (m.set p.toNat b) (p + 1) rest

/-- Store preset bytes. -/
def preset (m : Memory) : List (Address × Byte) → Memory
  | [] => m
  | (p, b) :: rest => preset (m.set p.toNat b) rest

/-- The state after reset with an instruction's bytes at `pc`, changed by `tweak`, and preset memory. -/
def start (pc : Address) (bytes : List Byte) (tweak : State → State) (mem : List (Address × Byte)) : State :=
  let s := tweak (State.reset.setPc pc)
  { s with mem := storeBytes (preset [] mem) pc bytes }

/-- A read access, as 95_test_vectors.md writes `r:addr=value`. -/
def r (p : Address) (v : Byte) : Access := { kind := .read, addr := p, value := v }

/-- A write access, as 95_test_vectors.md writes `w:addr=value`. -/
def w (p : Address) (v : Byte) : Access := { kind := .write, addr := p, value := v }

/-- What a vector shows of a state: `A X Y SP`, `PC`, `P`, and the accesses in order. -/
abbrev View := (Byte × Byte × Byte × Byte) × Address × Byte × List Access

/-- What a vector shows after one step. -/
def view : Result → Option View
  | .next t => some ((t.a, t.x, t.y, t.sp), t.pc, t.flags.pack, t.accesses)
  | .fault _ => none
  | .refused _ => none

/-- One step from a vector's start state. -/
def runFrom (pc : Address) (bytes : List Byte) (tweak : State → State) (mem : List (Address × Byte)) : Option View :=
  view (step (start pc bytes tweak mem))

/-! ### Well-formedness: one ill-formed term for each check -/

/-- STA has no immediate mode (R53: a blank cell); its operand bytes are as many as the mode takes. -/
theorem test_wf_mode_refused :
    (AsmTerm.mk .sta .imm [0x10]).hasMode = false ∧ (AsmTerm.mk .sta .imm [0x10]).hasOperands = true ∧
    (AsmTerm.mk .sta .imm [0x10]).wellFormed = false ∧ assemble (AsmTerm.mk .sta .imm [0x10]) = none := by decide

/-- LDA has the zero-page mode, which takes one operand byte and not two (R51). -/
theorem test_wf_operands_refused :
    (AsmTerm.mk .lda .zp [0x10, 0x20]).hasMode = true ∧ (AsmTerm.mk .lda .zp [0x10, 0x20]).hasOperands = false ∧
    (AsmTerm.mk .lda .zp [0x10, 0x20]).wellFormed = false := by decide

/-- `LDA $1234` is well formed, and assembles to AD 34 12. -/
theorem test_wf_accepted :
    (AsmTerm.mk .lda .abs [0x34, 0x12]).wellFormed = true ∧
    assemble (AsmTerm.mk .lda .abs [0x34, 0x12]) = some [0xAD, 0x34, 0x12] := by decide

/-! ### Decoding: every constructor, by a word written from the table of R53 -/

/-- The words of LDA, LDX, LDY (R53). -/
theorem test_decode_loads : ∀ p ∈ ([
    ([0xA9, 0x34], .ldaImm 0x34), ([0xA5, 0x34], .ldaZp 0x34), ([0xB5, 0x34], .ldaZpx 0x34),
    ([0xAD, 0x34, 0x12], .ldaAbs 0x1234), ([0xBD, 0x34, 0x12], .ldaAbx 0x1234),
    ([0xB9, 0x34, 0x12], .ldaAby 0x1234), ([0xA1, 0x34], .ldaIzx 0x34), ([0xB1, 0x34], .ldaIzy 0x34),
    ([0xA2, 0x34], .ldxImm 0x34), ([0xA6, 0x34], .ldxZp 0x34), ([0xB6, 0x34], .ldxZpy 0x34),
    ([0xAE, 0x34, 0x12], .ldxAbs 0x1234), ([0xBE, 0x34, 0x12], .ldxAby 0x1234), ([0xA0, 0x34], .ldyImm 0x34),
    ([0xA4, 0x34], .ldyZp 0x34), ([0xB4, 0x34], .ldyZpx 0x34), ([0xAC, 0x34, 0x12], .ldyAbs 0x1234),
    ([0xBC, 0x34, 0x12], .ldyAbx 0x1234)] :
    List (List Byte × Instr)), decode p.1 = .ok p.2 [] ∧ encode p.2 = p.1 := by decide

/-- The words of STA, STX, STY (R53). -/
theorem test_decode_stores : ∀ p ∈ ([
    ([0x85, 0x34], .staZp 0x34), ([0x95, 0x34], .staZpx 0x34), ([0x8D, 0x34, 0x12], .staAbs 0x1234),
    ([0x9D, 0x34, 0x12], .staAbx 0x1234), ([0x99, 0x34, 0x12], .staAby 0x1234), ([0x81, 0x34], .staIzx 0x34),
    ([0x91, 0x34], .staIzy 0x34), ([0x86, 0x34], .stxZp 0x34), ([0x96, 0x34], .stxZpy 0x34),
    ([0x8E, 0x34, 0x12], .stxAbs 0x1234), ([0x84, 0x34], .styZp 0x34), ([0x94, 0x34], .styZpx 0x34),
    ([0x8C, 0x34, 0x12], .styAbs 0x1234)] :
    List (List Byte × Instr)), decode p.1 = .ok p.2 [] ∧ encode p.2 = p.1 := by decide

/-- The words of TAX, TAY, TXA, TYA, TSX, TXS (R53). -/
theorem test_decode_transfers : ∀ p ∈ ([
    ([0xAA], .tax), ([0xA8], .tay), ([0x8A], .txa), ([0x98], .tya), ([0xBA], .tsx), ([0x9A], .txs)] :
    List (List Byte × Instr)), decode p.1 = .ok p.2 [] ∧ encode p.2 = p.1 := by decide

/-- The words of ADC, SBC (R53). -/
theorem test_decode_arithmetic : ∀ p ∈ ([
    ([0x69, 0x34], .adcImm 0x34), ([0x65, 0x34], .adcZp 0x34), ([0x75, 0x34], .adcZpx 0x34),
    ([0x6D, 0x34, 0x12], .adcAbs 0x1234), ([0x7D, 0x34, 0x12], .adcAbx 0x1234),
    ([0x79, 0x34, 0x12], .adcAby 0x1234), ([0x61, 0x34], .adcIzx 0x34), ([0x71, 0x34], .adcIzy 0x34),
    ([0xE9, 0x34], .sbcImm 0x34), ([0xE5, 0x34], .sbcZp 0x34), ([0xF5, 0x34], .sbcZpx 0x34),
    ([0xED, 0x34, 0x12], .sbcAbs 0x1234), ([0xFD, 0x34, 0x12], .sbcAbx 0x1234),
    ([0xF9, 0x34, 0x12], .sbcAby 0x1234), ([0xE1, 0x34], .sbcIzx 0x34), ([0xF1, 0x34], .sbcIzy 0x34)] :
    List (List Byte × Instr)), decode p.1 = .ok p.2 [] ∧ encode p.2 = p.1 := by decide

/-- The words of CMP, CPX, CPY (R53). -/
theorem test_decode_compares : ∀ p ∈ ([
    ([0xC9, 0x34], .cmpImm 0x34), ([0xC5, 0x34], .cmpZp 0x34), ([0xD5, 0x34], .cmpZpx 0x34),
    ([0xCD, 0x34, 0x12], .cmpAbs 0x1234), ([0xDD, 0x34, 0x12], .cmpAbx 0x1234),
    ([0xD9, 0x34, 0x12], .cmpAby 0x1234), ([0xC1, 0x34], .cmpIzx 0x34), ([0xD1, 0x34], .cmpIzy 0x34),
    ([0xE0, 0x34], .cpxImm 0x34), ([0xE4, 0x34], .cpxZp 0x34), ([0xEC, 0x34, 0x12], .cpxAbs 0x1234),
    ([0xC0, 0x34], .cpyImm 0x34), ([0xC4, 0x34], .cpyZp 0x34), ([0xCC, 0x34, 0x12], .cpyAbs 0x1234)] :
    List (List Byte × Instr)), decode p.1 = .ok p.2 [] ∧ encode p.2 = p.1 := by decide

/-- The words of AND, ORA, EOR (R53). -/
theorem test_decode_logical : ∀ p ∈ ([
    ([0x29, 0x34], .andImm 0x34), ([0x25, 0x34], .andZp 0x34), ([0x35, 0x34], .andZpx 0x34),
    ([0x2D, 0x34, 0x12], .andAbs 0x1234), ([0x3D, 0x34, 0x12], .andAbx 0x1234),
    ([0x39, 0x34, 0x12], .andAby 0x1234), ([0x21, 0x34], .andIzx 0x34), ([0x31, 0x34], .andIzy 0x34),
    ([0x09, 0x34], .oraImm 0x34), ([0x05, 0x34], .oraZp 0x34), ([0x15, 0x34], .oraZpx 0x34),
    ([0x0D, 0x34, 0x12], .oraAbs 0x1234), ([0x1D, 0x34, 0x12], .oraAbx 0x1234),
    ([0x19, 0x34, 0x12], .oraAby 0x1234), ([0x01, 0x34], .oraIzx 0x34), ([0x11, 0x34], .oraIzy 0x34),
    ([0x49, 0x34], .eorImm 0x34), ([0x45, 0x34], .eorZp 0x34), ([0x55, 0x34], .eorZpx 0x34),
    ([0x4D, 0x34, 0x12], .eorAbs 0x1234), ([0x5D, 0x34, 0x12], .eorAbx 0x1234),
    ([0x59, 0x34, 0x12], .eorAby 0x1234), ([0x41, 0x34], .eorIzx 0x34), ([0x51, 0x34], .eorIzy 0x34)] :
    List (List Byte × Instr)), decode p.1 = .ok p.2 [] ∧ encode p.2 = p.1 := by decide

/-- The words of ASL, LSR, ROL, ROR (R53). -/
theorem test_decode_shifts : ∀ p ∈ ([
    ([0x06, 0x34], .aslZp 0x34), ([0x16, 0x34], .aslZpx 0x34), ([0x0E, 0x34, 0x12], .aslAbs 0x1234),
    ([0x1E, 0x34, 0x12], .aslAbx 0x1234), ([0x0A], .aslAcc), ([0x46, 0x34], .lsrZp 0x34),
    ([0x56, 0x34], .lsrZpx 0x34), ([0x4E, 0x34, 0x12], .lsrAbs 0x1234), ([0x5E, 0x34, 0x12], .lsrAbx 0x1234),
    ([0x4A], .lsrAcc), ([0x26, 0x34], .rolZp 0x34), ([0x36, 0x34], .rolZpx 0x34),
    ([0x2E, 0x34, 0x12], .rolAbs 0x1234), ([0x3E, 0x34, 0x12], .rolAbx 0x1234), ([0x2A], .rolAcc),
    ([0x66, 0x34], .rorZp 0x34), ([0x76, 0x34], .rorZpx 0x34), ([0x6E, 0x34, 0x12], .rorAbs 0x1234),
    ([0x7E, 0x34, 0x12], .rorAbx 0x1234), ([0x6A], .rorAcc)] :
    List (List Byte × Instr)), decode p.1 = .ok p.2 [] ∧ encode p.2 = p.1 := by decide

/-- The words of INC, DEC, INX, INY, DEX, DEY, BIT (R53). -/
theorem test_decode_incdec_bit : ∀ p ∈ ([
    ([0xE6, 0x34], .incZp 0x34), ([0xF6, 0x34], .incZpx 0x34), ([0xEE, 0x34, 0x12], .incAbs 0x1234),
    ([0xFE, 0x34, 0x12], .incAbx 0x1234), ([0xC6, 0x34], .decZp 0x34), ([0xD6, 0x34], .decZpx 0x34),
    ([0xCE, 0x34, 0x12], .decAbs 0x1234), ([0xDE, 0x34, 0x12], .decAbx 0x1234), ([0xE8], .inx), ([0xC8], .iny),
    ([0xCA], .dex), ([0x88], .dey), ([0x24, 0x34], .bitZp 0x34), ([0x2C, 0x34, 0x12], .bitAbs 0x1234)] :
    List (List Byte × Instr)), decode p.1 = .ok p.2 [] ∧ encode p.2 = p.1 := by decide

/-- The words of BCC, BCS, BEQ, BNE, BMI, BPL, BVC, BVS, JMP, JSR, RTS (R53). -/
theorem test_decode_control : ∀ p ∈ ([
    ([0x90, 0x34], .bcc 0x34), ([0xB0, 0x34], .bcs 0x34), ([0xF0, 0x34], .beq 0x34), ([0xD0, 0x34], .bne 0x34),
    ([0x30, 0x34], .bmi 0x34), ([0x10, 0x34], .bpl 0x34), ([0x50, 0x34], .bvc 0x34), ([0x70, 0x34], .bvs 0x34),
    ([0x4C, 0x34, 0x12], .jmpAbs 0x1234), ([0x6C, 0x34, 0x12], .jmpInd 0x1234),
    ([0x20, 0x34, 0x12], .jsr 0x1234), ([0x60], .rts)] :
    List (List Byte × Instr)), decode p.1 = .ok p.2 [] ∧ encode p.2 = p.1 := by decide

/-- The words of PHA, PLA, PHP, PLP, NOP, CLC, SEC, CLI, SEI, CLV, CLD, SED (R53). -/
theorem test_decode_stack_nop_flags : ∀ p ∈ ([
    ([0x48], .pha), ([0x68], .pla), ([0x08], .php), ([0x28], .plp), ([0xEA], .nop), ([0x18], .clc),
    ([0x38], .sec), ([0x58], .cli), ([0x78], .sei), ([0xB8], .clv), ([0xD8], .cld), ([0xF8], .sed)] :
    List (List Byte × Instr)), decode p.1 = .ok p.2 [] ∧ encode p.2 = p.1 := by decide

/-- Absent bytes are rejected by name (R54): BRK, RTI and four more. -/
theorem test_decode_absent : ∀ op ∈ ([0x00, 0x40, 0x02, 0x80, 0x1A, 0xFF] : List Byte),
    decode [op, 0x34, 0x12] = .rejected (.absentOpcode op) := by decide

/-- Missing operand bytes are rejected by name (R51). -/
theorem test_decode_truncated :
    decode [] = .rejected .noBytes ∧ decode [0xA9] = .rejected (.truncated 0xA9) ∧
    decode [0x20, 0x34] = .rejected (.truncated 0x20) := by decide

/-- A word numbered as the opcode table numbers it: the first byte is the least significant (R50, R52). -/
theorem test_table_word :
    decodeTableWord 24 0x1234AD = some (.ldaAbs 0x1234) ∧ decodeTableWord 8 0xAD = some (.ldaAbs 0x0000) ∧
    decodeTableWord 16 0x41A9 = some (.ldaImm 0x41) ∧ decodeTableWord 8 0x00 = none := by decide

/-- The first step after reset runs the word placed for it. -/
theorem test_fetch_word :
    view (step (State.reset.withFetchWord 16 0x41A9)) =
      some ((0x41, 0x00, 0x00, 0xFF), 0x8002, 0x20, [r 0x8000 0xA9, r 0x8001 0x41]) := by decide

/-! ### One step each: vectors of 95_test_vectors.md section 3 -/

/-- V-41.3, LDA #$7F. LDA clears Z and N, leaves C V. -/
theorem test_lda_v41_3 : runFrom 0x8000 [0xA9, 0x7F] (fun s => s.setProcessorStatus 0xE3) [] =
      some ((0x7F, 0x00, 0x00, 0xFF), 0x8002, 0x61, [r 0x8000 0xA9, r 0x8001 0x7F]) := by decide

/-- V-40.4, LDA $F7,X. ZPX wrap: 0xF7+0x0A to 0x0001, not 0x0101. -/
theorem test_lda_v40_4 : runFrom 0x8000 [0xB5, 0xF7] (fun s => s.setReg .x 0x0A) [(0x0001, 0x66), (0x0101, 0xEE)] =
      some ((0x66, 0x0A, 0x00, 0xFF), 0x8002, 0x20, [r 0x8000 0xB5, r 0x8001 0xF7, r 0x0001 0x66]) := by decide

/-- V-40.9, LDA $FFFF,X. ABX wraps at 0xFFFF (D24). -/
theorem test_lda_v40_9 : runFrom 0x8000 [0xBD, 0xFF, 0xFF] (fun s => s.setReg .x 0x01) [(0x0000, 0x22)] =
      some ((0x22, 0x01, 0x00, 0xFF), 0x8003, 0x20, [r 0x8000 0xBD, r 0x8001 0xFF, r 0x8002 0xFF,
        r 0x0000 0x22]) := by decide

/-- V-40.12, LDA ($F0,X). IZX pointer at 0xFF: high byte from 0x0000 (D7). -/
theorem test_lda_v40_12 : runFrom 0x8000 [0xA1, 0xF0]
      (fun s => s.setReg .x 0x0F) [(0x00FF, 0x34), (0x0000, 0x12), (0x0100, 0xEE), (0x1234, 0x77)] =
      some ((0x77, 0x0F, 0x00, 0xFF), 0x8002, 0x20, [r 0x8000 0xA1, r 0x8001 0xF0, r 0x00FF 0x34, r 0x0000 0x12,
        r 0x1234 0x77]) := by decide

/-- V-40.15, LDA ($FF),Y. IZY pointer at 0xFF: high byte from 0x0000 (D7). -/
theorem test_lda_v40_15 : runFrom 0x8000 [0xB1, 0xFF]
      (fun s => s.setReg .y 0x01) [(0x00FF, 0xFF), (0x0000, 0x02), (0x0100, 0xEE), (0x0300, 0x21)] =
      some ((0x21, 0x00, 0x01, 0xFF), 0x8002, 0x20, [r 0x8000 0xB1, r 0x8001 0xFF, r 0x00FF 0xFF, r 0x0000 0x02,
        r 0x0300 0x21]) := by decide

/-- V-40.16, LDA ($10),Y. IZY sum wraps at 0xFFFF (D24). -/
theorem test_lda_v40_16 : runFrom 0x8000 [0xB1, 0x10]
      (fun s => s.setReg .y 0x02) [(0x0010, 0xFF), (0x0011, 0xFF), (0x0001, 0x11)] =
      some ((0x11, 0x00, 0x02, 0xFF), 0x8002, 0x20, [r 0x8000 0xB1, r 0x8001 0x10, r 0x0010 0xFF, r 0x0011 0xFF,
        r 0x0001 0x11]) := by decide

/-- V-40.19, at FFFF: LDA #$41. Opcode at 0xFFFF, its operand byte lies at 0x0000; PC wraps to 0x0001. -/
theorem test_lda_v40_19 : runFrom 0xFFFF [0xA9, 0x41] id [] =
      some ((0x41, 0x00, 0x00, 0xFF), 0x0001, 0x20, [r 0xFFFF 0xA9, r 0x0000 0x41]) := by decide

/-- V-40.20, at FFFE: LDA $0300. Opcode at 0xFFFE, operand bytes at 0xFFFF and 0x0000. -/
theorem test_lda_v40_20 : runFrom 0xFFFE [0xAD, 0x00, 0x03] id [(0x0300, 0x77)] =
      some ((0x77, 0x00, 0x00, 0xFF), 0x0001, 0x20, [r 0xFFFE 0xAD, r 0xFFFF 0x00, r 0x0000 0x03,
        r 0x0300 0x77]) := by decide

/-- V-40.6, LDX $F0,Y. ZPY wrap. -/
theorem test_ldx_v40_6 : runFrom 0x8000 [0xB6, 0xF0] (fun s => s.setReg .y 0x20) [(0x0010, 0x44), (0x0110, 0xEE)] =
      some ((0x00, 0x44, 0x20, 0xFF), 0x8002, 0x20, [r 0x8000 0xB6, r 0x8001 0xF0, r 0x0010 0x44]) := by decide

/-- V-41.4, LDX #$03. LDX, the source LDX #0x03. -/
theorem test_ldx_v41_4 : runFrom 0x8000 [0xA2, 0x03] id [] =
      some ((0x00, 0x03, 0x00, 0xFF), 0x8002, 0x20, [r 0x8000 0xA2, r 0x8001 0x03]) := by decide

/-- V-41.6, LDY #$00. LDY zero. -/
theorem test_ldy_v41_6 : runFrom 0x8000 [0xA0, 0x00] (fun s => s.setReg .y 0x09) [] =
      some ((0x00, 0x00, 0x00, 0xFF), 0x8002, 0x22, [r 0x8000 0xA0, r 0x8001 0x00]) := by decide

/-- V-41.7, LDY $10,X. LDY ZPX. -/
theorem test_ldy_v41_7 : runFrom 0x8000 [0xB4, 0x10] (fun s => s.setReg .x 0x01) [(0x0011, 0x80)] =
      some ((0x00, 0x01, 0x80, 0xFF), 0x8002, 0xA0, [r 0x8000 0xB4, r 0x8001 0x10, r 0x0011 0x80]) := by decide

/-- V-40.10, STA $0200,Y. ABY store, no read of ea. -/
theorem test_sta_v40_10 : runFrom 0x8000 [0x99, 0x00, 0x02] (fun s => (s.setReg .a 0x5A).setReg .y 0xFF) [] =
      some ((0x5A, 0x00, 0xFF, 0xFF), 0x8003, 0x20, [r 0x8000 0x99, r 0x8001 0x00, r 0x8002 0x02,
        w 0x02FF 0x5A]) := by decide

/-- V-41.9, STA $0200. STA of zero leaves flags. -/
theorem test_sta_v41_9 : runFrom 0x8000 [0x8D, 0x00, 0x02] (fun s => (s.setReg .a 0x00).setProcessorStatus 0xA1) [] =
      some ((0x00, 0x00, 0x00, 0xFF), 0x8003, 0xA1, [r 0x8000 0x8D, r 0x8001 0x00, r 0x8002 0x02,
        w 0x0200 0x00]) := by decide

/-- V-41.10, STA ($20,X). STA IZX. -/
theorem test_sta_v41_10 : runFrom 0x8000 [0x81, 0x20]
      (fun s => (s.setReg .a 0x42).setReg .x 0x04) [(0x0024, 0x00), (0x0025, 0x03)] =
      some ((0x42, 0x04, 0x00, 0xFF), 0x8002, 0x20, [r 0x8000 0x81, r 0x8001 0x20, r 0x0024 0x00, r 0x0025 0x03,
        w 0x0300 0x42]) := by decide

/-- V-41.11, STA ($20),Y. STA IZY page cross. -/
theorem test_sta_v41_11 : runFrom 0x8000 [0x91, 0x20]
      (fun s => (s.setReg .a 0x42).setReg .y 0x10) [(0x0020, 0xF8), (0x0021, 0x02)] =
      some ((0x42, 0x00, 0x10, 0xFF), 0x8002, 0x20, [r 0x8000 0x91, r 0x8001 0x20, r 0x0020 0xF8, r 0x0021 0x02,
        w 0x0308 0x42]) := by decide

/-- V-41.13, STX $FF,Y. STX ZPY wrap to 0x0001. -/
theorem test_stx_v41_13 : runFrom 0x8000 [0x96, 0xFF] (fun s => (s.setReg .x 0x11).setReg .y 0x02) [] =
      some ((0x00, 0x11, 0x02, 0xFF), 0x8002, 0x20, [r 0x8000 0x96, r 0x8001 0xFF, w 0x0001 0x11]) := by decide

/-- V-41.14, STY $10. STY ZP. -/
theorem test_sty_v41_14 : runFrom 0x8000 [0x84, 0x10] (fun s => s.setReg .y 0x01) [] =
      some ((0x00, 0x00, 0x01, 0xFF), 0x8002, 0x20, [r 0x8000 0x84, r 0x8001 0x10, w 0x0010 0x01]) := by decide

/-- V-41.15, TAX. TAX zero. -/
theorem test_tax_v41_15 : runFrom 0x8000 [0xAA] (fun s => (s.setReg .a 0x00).setReg .x 0x55) [] =
      some ((0x00, 0x00, 0x00, 0xFF), 0x8001, 0x22, [r 0x8000 0xAA]) := by decide

/-- V-41.16, TAY. TAY negative. -/
theorem test_tay_v41_16 : runFrom 0x8000 [0xA8] (fun s => s.setReg .a 0xFF) [] =
      some ((0xFF, 0x00, 0xFF, 0xFF), 0x8001, 0xA0, [r 0x8000 0xA8]) := by decide

/-- V-41.17, TXA. TXA. -/
theorem test_txa_v41_17 : runFrom 0x8000 [0x8A]
      (fun s => ((s.setReg .x 0x10).setReg .a 0xFF).setFlags { s.flags with n := true }) [] =
      some ((0x10, 0x10, 0x00, 0xFF), 0x8001, 0x20, [r 0x8000 0x8A]) := by decide

/-- V-41.18, TYA. TYA. -/
theorem test_tya_v41_18 : runFrom 0x8000 [0x98] (fun s => s.setReg .y 0x80) [] =
      some ((0x80, 0x00, 0x80, 0xFF), 0x8001, 0xA0, [r 0x8000 0x98]) := by decide

/-- V-41.20, TSX. TSX zero. -/
theorem test_tsx_v41_20 : runFrom 0x8000 [0xBA] (fun s => (s.setReg .sp 0x00).setReg .x 0x33) [] =
      some ((0x00, 0x00, 0x00, 0x00), 0x8001, 0x22, [r 0x8000 0xBA]) := by decide

/-- V-41.21, TXS. TXS writes no flag: Z and N keep their values. -/
theorem test_txs_v41_21 : runFrom 0x8000 [0x9A] (fun s => (s.setReg .x 0x00).setProcessorStatus 0xA2) [] =
      some ((0x00, 0x00, 0x00, 0x00), 0x8001, 0xA2, [r 0x8000 0x9A]) := by decide

/-- V-42.8, ADC #$40. Overflow caused by carry in. -/
theorem test_adc_v42_8 : runFrom 0x8000 [0x69, 0x40]
      (fun s => (s.setReg .a 0x3F).setFlags { s.flags with c := true }) [] =
      some ((0x80, 0x00, 0x00, 0xFF), 0x8002, 0xE0, [r 0x8000 0x69, r 0x8001 0x40]) := by decide

/-- V-42.10, ADC #$01. D=1 has no effect (R117). -/
theorem test_adc_v42_10 : runFrom 0x8000 [0x69, 0x01]
      (fun s => (s.setReg .a 0x09).setFlags { s.flags with d := true }) [] =
      some ((0x0A, 0x00, 0x00, 0xFF), 0x8002, 0x28, [r 0x8000 0x69, r 0x8001 0x01]) := by decide

/-- V-42.11, ADC $10. ADC ZP. -/
theorem test_adc_v42_11 : runFrom 0x8000 [0x65, 0x10] (fun s => s.setReg .a 0x10) [(0x0010, 0x22)] =
      some ((0x32, 0x00, 0x00, 0xFF), 0x8002, 0x20, [r 0x8000 0x65, r 0x8001 0x10, r 0x0010 0x22]) := by decide

/-- V-42.12, SBC #$10. The source SBC example. -/
theorem test_sbc_v42_12 : runFrom 0x8000 [0xE9, 0x10]
      (fun s => (s.setReg .a 0x20).setFlags { s.flags with c := true }) [] =
      some ((0x10, 0x00, 0x00, 0xFF), 0x8002, 0x21, [r 0x8000 0xE9, r 0x8001 0x10]) := by decide

/-- V-42.15, SBC #$FF. Signed overflow, borrow. -/
theorem test_sbc_v42_15 : runFrom 0x8000 [0xE9, 0xFF]
      (fun s => (s.setReg .a 0x7F).setFlags { s.flags with c := true }) [] =
      some ((0x80, 0x00, 0x00, 0xFF), 0x8002, 0xE0, [r 0x8000 0xE9, r 0x8001 0xFF]) := by decide

/-- V-42.21, CMP #$10. Greater; V untouched. -/
theorem test_cmp_v42_21 : runFrom 0x8000 [0xC9, 0x10]
      (fun s => (s.setReg .a 0x20).setFlags { s.flags with v := true }) [] =
      some ((0x20, 0x00, 0x00, 0xFF), 0x8002, 0x61, [r 0x8000 0xC9, r 0x8001 0x10]) := by decide

/-- V-42.27, CMP #$FF. C=0 and N=0 (difference 0x01); carry-in ignored. -/
theorem test_cmp_v42_27 : runFrom 0x8000 [0xC9, 0xFF]
      (fun s => (s.setReg .a 0x00).setFlags { s.flags with c := true }) [] =
      some ((0x00, 0x00, 0x00, 0xFF), 0x8002, 0x20, [r 0x8000 0xC9, r 0x8001 0xFF]) := by decide

/-- V-42.29, CPX $0200. CPX ABS. -/
theorem test_cpx_v42_29 : runFrom 0x8000 [0xEC, 0x00, 0x02] (fun s => s.setReg .x 0x80) [(0x0200, 0x7F)] =
      some ((0x00, 0x80, 0x00, 0xFF), 0x8003, 0x21, [r 0x8000 0xEC, r 0x8001 0x00, r 0x8002 0x02,
        r 0x0200 0x7F]) := by decide

/-- V-42.30, CPY #$01. CPY less. -/
theorem test_cpy_v42_30 : runFrom 0x8000 [0xC0, 0x01] (fun s => s.setReg .y 0x00) [] =
      some ((0x00, 0x00, 0x00, 0xFF), 0x8002, 0xA0, [r 0x8000 0xC0, r 0x8001 0x01]) := by decide

/-- V-43.1, AND #$0F. AND zero; C V untouched. -/
theorem test_and_v43_1 : runFrom 0x8000 [0x29, 0x0F]
      (fun s => (s.setReg .a 0xF0).setFlags { s.flags with c := true, v := true }) [] =
      some ((0x00, 0x00, 0x00, 0xFF), 0x8002, 0x63, [r 0x8000 0x29, r 0x8001 0x0F]) := by decide

/-- V-43.7, AND ($10),Y. AND IZY. -/
theorem test_and_v43_7 : runFrom 0x8000 [0x31, 0x10]
      (fun s => (s.setReg .a 0xFF).setReg .y 0x01) [(0x0010, 0x00), (0x0011, 0x03), (0x0301, 0x81)] =
      some ((0x81, 0x00, 0x01, 0xFF), 0x8002, 0xA0, [r 0x8000 0x31, r 0x8001 0x10, r 0x0010 0x00, r 0x0011 0x03,
        r 0x0301 0x81]) := by decide

/-- V-43.3, ORA #$80. ORA. -/
theorem test_ora_v43_3 : runFrom 0x8000 [0x09, 0x80] (fun s => s.setReg .a 0x01) [] =
      some ((0x81, 0x00, 0x00, 0xFF), 0x8002, 0xA0, [r 0x8000 0x09, r 0x8001 0x80]) := by decide

/-- V-43.6, EOR #$5A. EOR with itself. -/
theorem test_eor_v43_6 : runFrom 0x8000 [0x49, 0x5A] (fun s => s.setReg .a 0x5A) [] =
      some ((0x00, 0x00, 0x00, 0xFF), 0x8002, 0x22, [r 0x8000 0x49, r 0x8001 0x5A]) := by decide

/-- V-43.8, ASL A. The source ASL example. -/
theorem test_asl_v43_8 : runFrom 0x8000 [0x0A] (fun s => s.setReg .a 0xFE) [] =
      some ((0xFC, 0x00, 0x00, 0xFF), 0x8001, 0xA1, [r 0x8000 0x0A]) := by decide

/-- V-43.11, ASL $10. ASL ZP: one read, one write, A kept. -/
theorem test_asl_v43_11 : runFrom 0x8000 [0x06, 0x10] (fun s => s.setReg .a 0x11) [(0x0010, 0xFE)] =
      some ((0x11, 0x00, 0x00, 0xFF), 0x8002, 0xA1, [r 0x8000 0x06, r 0x8001 0x10, r 0x0010 0xFE,
        w 0x0010 0xFC]) := by decide

/-- V-43.12, LSR A. LSR. -/
theorem test_lsr_v43_12 : runFrom 0x8000 [0x4A] (fun s => (s.setReg .a 0xFE).setFlags { s.flags with n := true }) [] =
      some ((0x7F, 0x00, 0x00, 0xFF), 0x8001, 0x20, [r 0x8000 0x4A]) := by decide

/-- V-43.14, LSR $0200. LSR ABS. -/
theorem test_lsr_v43_14 : runFrom 0x8000 [0x4E, 0x00, 0x02] id [(0x0200, 0x03)] =
      some ((0x00, 0x00, 0x00, 0xFF), 0x8003, 0x21, [r 0x8000 0x4E, r 0x8001 0x00, r 0x8002 0x02, r 0x0200 0x03,
        w 0x0200 0x01]) := by decide

/-- V-43.15, ROL A. ROL. -/
theorem test_rol_v43_15 : runFrom 0x8000 [0x2A] (fun s => (s.setReg .a 0x40).setFlags { s.flags with c := true }) [] =
      some ((0x81, 0x00, 0x00, 0xFF), 0x8001, 0xA0, [r 0x8000 0x2A]) := by decide

/-- V-43.18, ROL $10,X. ROL ZPX. -/
theorem test_rol_v43_18 : runFrom 0x8000 [0x36, 0x10]
      (fun s => (s.setReg .x 0x01).setFlags { s.flags with c := true }) [(0x0011, 0x80)] =
      some ((0x00, 0x01, 0x00, 0xFF), 0x8002, 0x21, [r 0x8000 0x36, r 0x8001 0x10, r 0x0011 0x80,
        w 0x0011 0x01]) := by decide

/-- V-43.19, ROR A. The source ROR example. -/
theorem test_ror_v43_19 : runFrom 0x8000 [0x6A] (fun s => s.setReg .a 0xFE) [] =
      some ((0x7F, 0x00, 0x00, 0xFF), 0x8001, 0x20, [r 0x8000 0x6A]) := by decide

/-- V-43.22, ROR $0200,X. ROR ABX. -/
theorem test_ror_v43_22 : runFrom 0x8000 [0x7E, 0x00, 0x02]
      (fun s => (s.setReg .x 0x02).setFlags { s.flags with c := true }) [(0x0202, 0xFE)] =
      some ((0x00, 0x02, 0x00, 0xFF), 0x8003, 0xA0, [r 0x8000 0x7E, r 0x8001 0x00, r 0x8002 0x02, r 0x0202 0xFE,
        w 0x0202 0xFF]) := by decide

/-- V-44.2, INC $10. INC wraps; C untouched. -/
theorem test_inc_v44_2 : runFrom 0x8000 [0xE6, 0x10]
      (fun s => s.setFlags { s.flags with c := true }) [(0x0010, 0xFF)] =
      some ((0x00, 0x00, 0x00, 0xFF), 0x8002, 0x23, [r 0x8000 0xE6, r 0x8001 0x10, r 0x0010 0xFF,
        w 0x0010 0x00]) := by decide

/-- V-44.4, INC $FF,X. INC ZPX wrap. -/
theorem test_inc_v44_4 : runFrom 0x8000 [0xF6, 0xFF] (fun s => s.setReg .x 0x02) [(0x0001, 0x0F)] =
      some ((0x00, 0x02, 0x00, 0xFF), 0x8002, 0x20, [r 0x8000 0xF6, r 0x8001 0xFF, r 0x0001 0x0F,
        w 0x0001 0x10]) := by decide

/-- V-44.5, DEC $10. DEC wraps. -/
theorem test_dec_v44_5 : runFrom 0x8000 [0xC6, 0x10] id [(0x0010, 0x00)] =
      some ((0x00, 0x00, 0x00, 0xFF), 0x8002, 0xA0, [r 0x8000 0xC6, r 0x8001 0x10, r 0x0010 0x00,
        w 0x0010 0xFF]) := by decide

/-- V-44.8, DEC $02FF,X. DEC ABX page cross. -/
theorem test_dec_v44_8 : runFrom 0x8000 [0xDE, 0xFF, 0x02] (fun s => s.setReg .x 0x01) [(0x0300, 0x10)] =
      some ((0x00, 0x01, 0x00, 0xFF), 0x8003, 0x20, [r 0x8000 0xDE, r 0x8001 0xFF, r 0x8002 0x02, r 0x0300 0x10,
        w 0x0300 0x0F]) := by decide

/-- V-44.9, INX. INX wraps. -/
theorem test_inx_v44_9 : runFrom 0x8000 [0xE8] (fun s => s.setReg .x 0xFF) [] =
      some ((0x00, 0x00, 0x00, 0xFF), 0x8001, 0x22, [r 0x8000 0xE8]) := by decide

/-- V-44.12, INY. INY wraps; C untouched. -/
theorem test_iny_v44_12 : runFrom 0x8000 [0xC8] (fun s => (s.setReg .y 0xFF).setFlags { s.flags with c := true }) [] =
      some ((0x00, 0x00, 0x00, 0xFF), 0x8001, 0x23, [r 0x8000 0xC8]) := by decide

/-- V-44.13, DEX. DEX wraps. -/
theorem test_dex_v44_13 : runFrom 0x8000 [0xCA] (fun s => s.setReg .x 0x00) [] =
      some ((0x00, 0xFF, 0x00, 0xFF), 0x8001, 0xA0, [r 0x8000 0xCA]) := by decide

/-- V-44.16, DEY. DEY wraps. -/
theorem test_dey_v44_16 : runFrom 0x8000 [0x88] (fun s => s.setReg .y 0x00) [] =
      some ((0x00, 0x00, 0xFF, 0xFF), 0x8001, 0xA0, [r 0x8000 0x88]) := by decide

/-- V-44.17, BIT $10. BIT: Z from AND, V from bit 6. -/
theorem test_bit_v44_17 : runFrom 0x8000 [0x24, 0x10] (fun s => s.setReg .a 0x0F) [(0x0010, 0x40)] =
      some ((0x0F, 0x00, 0x00, 0xFF), 0x8002, 0x62, [r 0x8000 0x24, r 0x8001 0x10, r 0x0010 0x40]) := by decide

/-- V-44.20, BIT $0200. BIT ABS; C untouched. -/
theorem test_bit_v44_20 : runFrom 0x8000 [0x2C, 0x00, 0x02]
      (fun s => (s.setReg .a 0x01).setFlags { s.flags with c := true }) [(0x0200, 0xC1)] =
      some ((0x01, 0x00, 0x00, 0xFF), 0x8003, 0xE1, [r 0x8000 0x2C, r 0x8001 0x00, r 0x8002 0x02,
        r 0x0200 0xC1]) := by decide

/-- V-45.2, BCC d=$05. Not taken. -/
theorem test_bcc_v45_2 : runFrom 0x8000 [0x90, 0x05] (fun s => s.setFlags { s.flags with c := true }) [] =
      some ((0x00, 0x00, 0x00, 0xFF), 0x8002, 0x21, [r 0x8000 0x90, r 0x8001 0x05]) := by decide

/-- V-45.22, at FFF8: BCC d=$10. Target wraps past 0xFFFF. -/
theorem test_bcc_v45_22 : runFrom 0xFFF8 [0x90, 0x10] id [] =
      some ((0x00, 0x00, 0x00, 0xFF), 0x000A, 0x20, [r 0xFFF8 0x90, r 0xFFF9 0x10]) := by decide

/-- V-45.4, BCS d=$05. Taken. -/
theorem test_bcs_v45_4 : runFrom 0x8000 [0xB0, 0x05] (fun s => s.setFlags { s.flags with c := true }) [] =
      some ((0x00, 0x00, 0x00, 0xFF), 0x8007, 0x21, [r 0x8000 0xB0, r 0x8001 0x05]) := by decide

/-- V-45.17, BEQ d=$FB. Backward, d=-5. -/
theorem test_beq_v45_17 : runFrom 0x8000 [0xF0, 0xFB] (fun s => s.setFlags { s.flags with z := true }) [] =
      some ((0x00, 0x00, 0x00, 0xFF), 0x7FFD, 0x22, [r 0x8000 0xF0, r 0x8001 0xFB]) := by decide

/-- V-45.8, BNE d=$05. Not taken. -/
theorem test_bne_v45_8 : runFrom 0x8000 [0xD0, 0x05] (fun s => s.setFlags { s.flags with z := true }) [] =
      some ((0x00, 0x00, 0x00, 0xFF), 0x8002, 0x22, [r 0x8000 0xD0, r 0x8001 0x05]) := by decide

/-- V-45.18, BNE d=$FE. D=-2: branch to itself. -/
theorem test_bne_v45_18 : runFrom 0x8000 [0xD0, 0xFE] id [] =
      some ((0x00, 0x00, 0x00, 0xFF), 0x8000, 0x20, [r 0x8000 0xD0, r 0x8001 0xFE]) := by decide

/-- V-45.20, BMI d=$7F. D=+127. -/
theorem test_bmi_v45_20 : runFrom 0x8000 [0x30, 0x7F] (fun s => s.setFlags { s.flags with n := true }) [] =
      some ((0x00, 0x00, 0x00, 0xFF), 0x8081, 0xA0, [r 0x8000 0x30, r 0x8001 0x7F]) := by decide

/-- V-45.12, BPL d=$05. Not taken. -/
theorem test_bpl_v45_12 : runFrom 0x8000 [0x10, 0x05] (fun s => s.setFlags { s.flags with n := true }) [] =
      some ((0x00, 0x00, 0x00, 0xFF), 0x8002, 0xA0, [r 0x8000 0x10, r 0x8001 0x05]) := by decide

/-- V-45.19, BPL d=$80. D=-128. -/
theorem test_bpl_v45_19 : runFrom 0x8000 [0x10, 0x80] id [] =
      some ((0x00, 0x00, 0x00, 0xFF), 0x7F82, 0x20, [r 0x8000 0x10, r 0x8001 0x80]) := by decide

/-- V-45.13, BVC d=$05. Taken. -/
theorem test_bvc_v45_13 : runFrom 0x8000 [0x50, 0x05] (fun s => s.setFlags { s.flags with v := false }) [] =
      some ((0x00, 0x00, 0x00, 0xFF), 0x8007, 0x20, [r 0x8000 0x50, r 0x8001 0x05]) := by decide

/-- V-45.16, BVS d=$05. Taken. -/
theorem test_bvs_v45_16 : runFrom 0x8000 [0x70, 0x05] (fun s => s.setFlags { s.flags with v := true }) [] =
      some ((0x00, 0x00, 0x00, 0xFF), 0x8007, 0x60, [r 0x8000 0x70, r 0x8001 0x05]) := by decide

/-- V-40.17, JMP ($02FF). IND same-page quirk: high byte from 0x0200. -/
theorem test_jmp_v40_17 : runFrom 0x8000 [0x6C, 0xFF, 0x02] id [(0x02FF, 0x34), (0x0200, 0x12), (0x0300, 0x56)] =
      some ((0x00, 0x00, 0x00, 0xFF), 0x1234, 0x20, [r 0x8000 0x6C, r 0x8001 0xFF, r 0x8002 0x02, r 0x02FF 0x34,
        r 0x0200 0x12]) := by decide

/-- V-40.18, JMP ($0280). IND without the quirk. -/
theorem test_jmp_v40_18 : runFrom 0x8000 [0x6C, 0x80, 0x02] id [(0x0280, 0x00), (0x0281, 0x90)] =
      some ((0x00, 0x00, 0x00, 0xFF), 0x9000, 0x20, [r 0x8000 0x6C, r 0x8001 0x80, r 0x8002 0x02, r 0x0280 0x00,
        r 0x0281 0x90]) := by decide

/-- V-45.24, JMP $9000. JMP ABS. -/
theorem test_jmp_v45_24 : runFrom 0x8000 [0x4C, 0x00, 0x90] id [] =
      some ((0x00, 0x00, 0x00, 0xFF), 0x9000, 0x20, [r 0x8000 0x4C, r 0x8001 0x00, r 0x8002 0x90]) := by decide

/-- V-45.29, JSR $1234. JSR with SP=00: stack wraps. -/
theorem test_jsr_v45_29 : runFrom 0x8000 [0x20, 0x34, 0x12] (fun s => s.setReg .sp 0x00) [] =
      some ((0x00, 0x00, 0x00, 0xFE), 0x1234, 0x20, [r 0x8000 0x20, r 0x8001 0x34, r 0x8002 0x12, w 0x0100 0x80,
        w 0x01FF 0x02]) := by decide

/-- V-45.30, at FFFD: JSR $1234. JSR at 0xFFFD pushes 0xFFFF. -/
theorem test_jsr_v45_30 : runFrom 0xFFFD [0x20, 0x34, 0x12] id [] =
      some ((0x00, 0x00, 0x00, 0xFD), 0x1234, 0x20, [r 0xFFFD 0x20, r 0xFFFE 0x34, r 0xFFFF 0x12, w 0x01FF 0xFF,
        w 0x01FE 0xFF]) := by decide

/-- V-45.31, RTS. RTS of 0xFFFF: PC wraps to 0x0000. -/
theorem test_rts_v45_31 : runFrom 0x8000 [0x60] (fun s => s.setReg .sp 0xFD) [(0x01FE, 0xFF), (0x01FF, 0xFF)] =
      some ((0x00, 0x00, 0x00, 0xFF), 0x0000, 0x20, [r 0x8000 0x60, r 0x01FE 0xFF, r 0x01FF 0xFF]) := by decide

/-- V-45.32, RTS. RTS with SP=FF: pulls 0x0100 then 0x0101. -/
theorem test_rts_v45_32 : runFrom 0x8000 [0x60] (fun s => s.setReg .sp 0xFF) [(0x0100, 0x02), (0x0101, 0x80)] =
      some ((0x00, 0x00, 0x00, 0x01), 0x8003, 0x20, [r 0x8000 0x60, r 0x0100 0x02, r 0x0101 0x80]) := by decide

/-- V-46.2, PHA. PHA wraps SP. -/
theorem test_pha_v46_2 : runFrom 0x8000 [0x48] (fun s => (s.setReg .a 0x42).setReg .sp 0x00) [] =
      some ((0x42, 0x00, 0x00, 0xFF), 0x8001, 0x20, [r 0x8000 0x48, w 0x0100 0x42]) := by decide

/-- V-46.4, PLA. PLA wraps SP. -/
theorem test_pla_v46_4 : runFrom 0x8000 [0x68] (fun s => s.setReg .sp 0xFF) [(0x0100, 0x80)] =
      some ((0x80, 0x00, 0x00, 0x00), 0x8001, 0xA0, [r 0x8000 0x68, r 0x0100 0x80]) := by decide

/-- V-46.5, PHP. PHP after Reset pushes 0x30; stored B stays 0. -/
theorem test_php_v46_5 : runFrom 0x8000 [0x08] id [] =
      some ((0x00, 0x00, 0x00, 0xFE), 0x8001, 0x20, [r 0x8000 0x08, w 0x01FF 0x30]) := by decide

/-- V-46.6, PHP. PHP forces bits 4, 5 in memory only. -/
theorem test_php_v46_6 : runFrom 0x8000 [0x08] (fun s => s.setProcessorStatus 0xEE) [] =
      some ((0x00, 0x00, 0x00, 0xFE), 0x8001, 0xEE, [r 0x8000 0x08, w 0x01FF 0xFE]) := by decide

/-- V-46.8, PLP. PLP 00: all clear, P reads 20. -/
theorem test_plp_v46_8 : runFrom 0x8000 [0x28]
      (fun s => (s.setReg .sp 0xFE).setProcessorStatus 0xFF) [(0x01FF, 0x00)] =
      some ((0x00, 0x00, 0x00, 0xFF), 0x8001, 0x20, [r 0x8000 0x28, r 0x01FF 0x00]) := by decide

/-- V-46.12, PLP. PLP CF: B=0, bit 5 reads 1. -/
theorem test_plp_v46_12 : runFrom 0x8000 [0x28] (fun s => s.setReg .sp 0xFE) [(0x01FF, 0xCF)] =
      some ((0x00, 0x00, 0x00, 0xFF), 0x8001, 0xEF, [r 0x8000 0x28, r 0x01FF 0xCF]) := by decide

/-- V-46.14, NOP. NOP. -/
theorem test_nop_v46_14 : runFrom 0x8000 [0xEA]
      (fun s => (((s.setProcessorStatus 0xE3).setReg .a 0x01).setReg .x 0x02).setReg .y 0x03) [] =
      some ((0x01, 0x02, 0x03, 0xFF), 0x8001, 0xE3, [r 0x8000 0xEA]) := by decide

/-- V-47.1, CLC. CLC. -/
theorem test_clc_v47_1 : runFrom 0x8000 [0x18] (fun s => s.setProcessorStatus 0xFF) [] =
      some ((0x00, 0x00, 0x00, 0xFF), 0x8001, 0xFE, [r 0x8000 0x18]) := by decide

/-- V-47.3, SEC. SEC. -/
theorem test_sec_v47_3 : runFrom 0x8000 [0x38] id [] =
      some ((0x00, 0x00, 0x00, 0xFF), 0x8001, 0x21, [r 0x8000 0x38]) := by decide

/-- V-47.4, CLI. CLI. -/
theorem test_cli_v47_4 : runFrom 0x8000 [0x58] (fun s => s.setProcessorStatus 0xFF) [] =
      some ((0x00, 0x00, 0x00, 0xFF), 0x8001, 0xFB, [r 0x8000 0x58]) := by decide

/-- V-47.5, SEI. SEI. -/
theorem test_sei_v47_5 : runFrom 0x8000 [0x78] id [] =
      some ((0x00, 0x00, 0x00, 0xFF), 0x8001, 0x24, [r 0x8000 0x78]) := by decide

/-- V-47.6, CLV. CLV. -/
theorem test_clv_v47_6 : runFrom 0x8000 [0xB8] (fun s => s.setProcessorStatus 0xFF) [] =
      some ((0x00, 0x00, 0x00, 0xFF), 0x8001, 0xBF, [r 0x8000 0xB8]) := by decide

/-- V-47.7, CLD. CLD. -/
theorem test_cld_v47_7 : runFrom 0x8000 [0xD8] (fun s => s.setProcessorStatus 0xFF) [] =
      some ((0x00, 0x00, 0x00, 0xFF), 0x8001, 0xF7, [r 0x8000 0xD8]) := by decide

/-- V-47.8, SED. SED. -/
theorem test_sed_v47_8 : runFrom 0x8000 [0xF8] id [] =
      some ((0x00, 0x00, 0x00, 0xFF), 0x8001, 0x28, [r 0x8000 0xF8]) := by decide

/-! ### The exception, the host's ports, reset -/

/-- The state of V-60.6: an absent byte at `PC`, registers and flags not at their reset values. -/
def absentStart : State :=
  start 0x8000 [0xFF, 0xAA, 0xBB]
    (fun s => (((s.setReg .a 0x01).setReg .x 0x02).setReg .y 0x03).setProcessorStatus 0xE3) []

/-- V-60.6. One read, `PC` still at the byte, nothing else of the core changed. -/
theorem test_invalid_opcode_v60_6 :
    view (step absentStart) = some ((0x01, 0x02, 0x03, 0xFF), 0x8000, 0xE3, [r 0x8000 0xFF]) := by decide

/-- The next state, or the reset state where there is none. -/
def nextOf : Result → State
  | .next t => t
  | .fault _ => State.reset
  | .refused _ => State.reset

/-- The fault, if it is one. -/
def faultOf : Result → Option Fault
  | .next _ => none
  | .fault f => some f
  | .refused _ => none

/-- V-60.6. The fault latch, and the failure that the next step reports (R183, program P5 step 3). -/
theorem test_halt_is_sticky :
    (nextOf (step absentStart)).halted = true ∧ (nextOf (step absentStart)).faultOpcode = 0xFF ∧
    (nextOf (step absentStart)).faultPc = 0x8000 ∧ (nextOf (step absentStart)).faultCause = 1 ∧
    faultOf (step (nextOf (step absentStart))) = some (.halted 0xFF 0x8000) := by decide

/-- V-70.1, V-70.5. The state after reset. -/
theorem test_reset_v70_1 :
    view (.next State.reset) = some ((0x00, 0x00, 0x00, 0xFF), 0x8000, 0x20, []) ∧
    State.reset.halted = false ∧ State.reset.faultOpcode = 0x00 ∧ State.reset.faultPc = 0x0000 := by decide

/-- V-70.3. `Reset` clears the halt and the latch, and leaves memory. -/
theorem test_reset_v70_3 :
    view (.next ((nextOf (step absentStart)).hostReset 0xC000)) = some ((0x00, 0x00, 0x00, 0xFF), 0xC000, 0x20, []) ∧
    ((nextOf (step absentStart)).hostReset 0xC000).halted = false ∧
    ((nextOf (step absentStart)).hostReset 0xC000).faultOpcode = 0x00 ∧
    ((nextOf (step absentStart)).hostReset 0xC000).mem = absentStart.mem := by decide

/-- V-70.6. The status ports: bit 5 reads as 1. -/
theorem test_status_ports_v70_6 :
    (State.reset.setProcessorStatus 0xDF).processorStatus = 0xFF ∧
    (State.reset.setProcessorStatus 0x00).processorStatus = 0x20 := by decide

/-- Storing the unlisted byte removes the entry, so that the memory is again the memory of reset (log entry 1). -/
theorem test_memory_canonical :
    (State.reset.busWrite 0x0200 0x41).mem = [(0x0200, 0x41)] ∧
    ((State.reset.busWrite 0x0200 0x41).busWrite 0x0200 0x00).mem = [] := by decide

/-! ### For every statement with hypotheses, a state and operands that meet them -/

open Sys2Proof.Spec

/-- `STA $8003` at 0x8000, `A` holding NOP's byte: the store writes the next opcode. -/
def selfStore : State := start 0x8000 [0x8D, 0x03, 0x80] (fun s => s.setReg .a 0xEA) []

/-- NOP in the last byte of the address space. -/
def lastByte : State := start 0xFFFF [0xEA] id []

/-- A state in which every flag is 1 and a halt is recorded. -/
def haltedState : State := { absentStart with halted := true, faultOpcode := 0xFF, faultPc := 0x8000 }

/-- A state whose first page is a device. -/
def deviceState : State := { State.reset with external := [{ base := 0, size := 0x100 }] }

theorem witness_DecodedBytesAreTheEncoding : decode [0xAD, 0x34, 0x12, 0x99] = .ok (.ldaAbs 0x1234) [0x99] := by decide

theorem witness_OpcodeAloneSelectsInstruction :
    decode ((0xAD : Byte) :: [0x34, 0x12]) = .ok (.ldaAbs 0x1234) [] ∧
    decode ((0xAD : Byte) :: [0xFF, 0xFF, 0x00]) = .ok (.ldaAbs 0xFFFF) [0x00] := by decide

theorem witness_WellFormedTermsAreInstructions : assemble (AsmTerm.mk .jmp .ind [0xFF, 0x02]) = some [0x6C, 0xFF, 0x02] := by
  decide

theorem witness_StepRunsDecodedInstruction :
    selfStore.halted = false ∧ decode (codeBytes selfStore) = .ok (.staAbs 0x8003) [] := by decide

theorem witness_AbsentOpcodeHaltsCore :
    absentStart.halted = false ∧ (0xFF : Byte) = absentStart.answer 0 absentStart.pc ∧ (0xFF : Byte) ∈ absentOpcodes := by
  decide

/-- Both cases of the statement: an absent opcode, and a present one. -/
theorem witness_InvalidOpcodeIsTheOnlyException :
    ((∃ t, step absentStart = .next t) ∧ absentStart.answer 0 absentStart.pc ∈ absentOpcodes) ∧
    (∃ t, step selfStore = .next t) ∧ selfStore.answer 0 selfStore.pc ∉ absentOpcodes :=
  ⟨⟨⟨_, rfl⟩, by decide⟩, ⟨_, rfl⟩, by decide⟩

theorem witness_StepFailsExactlyWhenHalted : haltedState.halted = true ∧ State.reset.halted = false := by decide

/-- The first clause with `PC` in the last byte, where it wraps; the second at an absent opcode. -/
theorem witness_PcMovesToNaturalSuccessor :
    (lastByte.halted = false ∧ decode (codeBytes lastByte) = .ok .nop [0x00, 0x00] ∧ Instr.nop.mnemonic ∉ transfers ∧
      ∃ t, step lastByte = .next t) ∧
    (∃ t, step absentStart = .next t) ∧ absentStart.answer 0 absentStart.pc ∈ absentOpcodes :=
  ⟨⟨by decide, by decide, by decide, _, rfl⟩, ⟨_, rfl⟩, by decide⟩

/-- An unhalted state, and a state whose next step halts. -/
theorem witness_StepKeepsInvariant :
    (selfStore.Inv ∧ ∃ t, step selfStore = .next t) ∧ absentStart.Inv ∧ ∃ t, step absentStart = .next t :=
  ⟨⟨by decide, _, rfl⟩, by decide, _, rfl⟩

theorem witness_ResetMeetsInvariant : haltedState.mem.wf = true := by decide

theorem witness_ReachableStatesMeetInvariant : Reachable ((State.reset.setProcessorStatus 0xE3).hostReset 0xC000) :=
  .hostReset 0xC000 (.setStatus 0xE3 .reset)

theorem witness_RunsPassThroughUnhaltedStates : (∃ t, Steps 2 selfStore t) ∧ 1 < 2 := ⟨⟨_, rfl⟩, by decide⟩

theorem witness_StaleRecordsReachNothing : absentStart.halted = false ∧ selfStore.halted = false := by decide

theorem witness_StorageOnlyFlagsReachNothing :
    Instr.plp ≠ .php ∧ SameButIDB State.reset (State.reset.setFlags { State.reset.flags with i := true, d := true }) :=
  ⟨by decide, rfl⟩

/-- `LDA ($10,X)` with plain RAM, and a state whose memory holds other bytes elsewhere. -/
theorem witness_RecordedReadsAreTheOnlyMemoryInputs :
    ∃ t, exec (.ldaIzx 0x10) State.reset = .next t ∧
      t.accesses = State.reset.accesses ++ [r 0x0010 0x00, r 0x0011 0x00, r 0x0000 0x00] ∧
      SameCore State.reset { State.reset with mem := [(0x4000, 0x55)] } ∧
      ∀ (k : Nat) (e : Access), (([r 0x0010 0x00, r 0x0011 0x00, r 0x0000 0x00]).filter (·.kind = .read))[k]? = some e →
        ({ State.reset with mem := [(0x4000, 0x55)] } : State).answer k e.addr = e.value := by
  refine ⟨_, rfl, rfl, rfl, fun k e h => ?_⟩
  match k with
  | 0 | 1 | 2 => cases h; rfl
  | _ + 3 => cases h

/-- Storage at the last address, and a device at the first. -/
theorem witness_PortReadsAndWritesOneByte :
    deviceState.mem.wf = true ∧ deviceState.isExternal 0x00FF = true ∧ deviceState.isExternal 0x0100 = false ∧
    (0x0100 : Address) ≠ 0x00FF := by decide

theorem witness_CanonicalMemoriesAreEqual :
    Memory.wf [(0x0200, 0x41)] = true ∧
    ∀ p : Address, Memory.get [(0x0200, 0x41)] p.toNat = Memory.get (Memory.set [] 0x0200 0x41) p.toNat :=
  ⟨by decide, fun _ => rfl⟩

theorem witness_AccessesFollowTable : ∃ t, exec (.rorAbx 0xFFFF) State.reset = .next t := ⟨_, rfl⟩

/-- The first clause: JSR into the stack page, to the very byte that its second push, which wraps, writes. -/
theorem witness_StoreIsSeenByNextFetch_opcode :
    ∃ (t u : State) (l : List Access) (e : Access),
      exec (.jsr 0x01FF) (State.reset.setReg .sp 0x00) = .next t ∧
      t.accesses = (State.reset.setReg .sp 0x00).accesses ++ l ∧ e ∈ l ∧ e.kind = .write ∧ e.addr = t.pc ∧
      (State.reset.setReg .sp 0x00).mem.wf = true ∧ (State.reset.setReg .sp 0x00).isExternal t.pc = false ∧
      (State.reset.setReg .sp 0x00).halted = false ∧ step t = .next u :=
  ⟨_, _, [w 0x0100 0x7F, w 0x01FF 0xFF], w 0x01FF 0xFF, rfl, rfl, by decide, rfl, rfl, by decide, rfl, rfl, rfl⟩

/-- The second clause: INC of the last operand byte of the three-byte instruction at `PC`, `LDA $0000`. -/
theorem witness_StoreIsSeenByNextFetch_operand :
    ∃ (t u : State) (l : List Access) (e : Access),
      exec (.incAbs 0x8002) (start 0x8000 [0xAD, 0x00, 0x00] id []) = .next t ∧
      t.accesses = (start 0x8000 [0xAD, 0x00, 0x00] id []).accesses ++ l ∧ e ∈ l ∧ e.kind = .write ∧
      decode (codeBytes t) = .ok (.ldaAbs 0x0100) [] ∧ 2 < (Instr.ldaAbs 0x0100).length ∧
      e.addr = t.pc + BitVec.ofNat 16 2 ∧ (start 0x8000 [0xAD, 0x00, 0x00] id []).mem.wf = true ∧
      (start 0x8000 [0xAD, 0x00, 0x00] id []).isExternal e.addr = false ∧
      (start 0x8000 [0xAD, 0x00, 0x00] id []).halted = false ∧ step t = .next u :=
  ⟨_, _, [r 0x8002 0x00, w 0x8002 0x01], w 0x8002 0x01, rfl, rfl, by decide, rfl, rfl, by decide, rfl, by decide, rfl,
    rfl, rfl⟩

/-- The third clause, at the state in which the store executes. -/
theorem witness_StoreIsSeenByNextFetch_register :
    ∃ t u : State, ((Instr.staAbs 0x8003).mnemonic, Reg.a) ∈ [(Mnemonic.sta, Reg.a), (.stx, .x), (.sty, .y)] ∧
      (Instr.staAbs 0x8003).operand = .memory (.abs 0x8003) ∧
      exec (.staAbs 0x8003) (afterFetch selfStore 3) = .next t ∧ (afterFetch selfStore 3).mem.wf = true ∧
      (afterFetch selfStore 3).isExternal (afterFetch selfStore 3).pc = false ∧
      ((afterFetch selfStore 3).resolve (.abs 0x8003)).1 = (afterFetch selfStore 3).pc ∧
      (afterFetch selfStore 3).halted = false ∧ step t = .next u :=
  ⟨_, _, by decide, rfl, rfl, by decide, by decide, by decide, by decide, rfl⟩

theorem witness_LoadsSetRegisterAndZN :
    (Instr.ldaIzy 0xFF).mnemonic = .lda ∧ (Instr.ldxZpy 0xFF).mnemonic = .ldx ∧ (Instr.ldyImm 0x00).mnemonic = .ldy := by
  decide

theorem witness_StoresWriteRegister :
    (Instr.staIzx 0xFF).mnemonic = .sta ∧ (Instr.stxZpy 0xFF).mnemonic = .stx ∧ (Instr.styAbs 0xFFFF).mnemonic = .sty := by
  decide

theorem witness_AddAndSubtractWithCarry :
    (Instr.adcImm 0xFF).mnemonic = .adc ∧ (Instr.sbcAby 0xFFFF).mnemonic = .sbc := by decide

theorem witness_ComparesSetCarryZeroNegative :
    (Instr.cmpImm 0xFF).mnemonic = .cmp ∧ (Instr.cpxZp 0x00).mnemonic = .cpx ∧ (Instr.cpyAbs 0xFFFF).mnemonic = .cpy := by
  decide

theorem witness_LogicalCombinesBits :
    (Instr.andImm 0x00).mnemonic = .and ∧ (Instr.oraIzx 0xFF).mnemonic = .ora ∧ (Instr.eorAbx 0xFFFF).mnemonic = .eor := by
  decide

theorem witness_ShiftsMoveOneBit :
    ((Instr.aslAbx 0xFFFF).mnemonic = .asl ∧ (Instr.aslAbx 0xFFFF).operand = .memory (.abx 0xFFFF)) ∧
    ((Instr.lsrZp 0x00).mnemonic = .lsr ∧ (Instr.lsrZp 0x00).operand = .memory (.zp 0x00)) := by decide

theorem witness_RotatesMoveThroughCarry :
    ((Instr.rolZpx 0xFF).mnemonic = .rol ∧ (Instr.rolZpx 0xFF).operand = .memory (.zpx 0xFF)) ∧
    ((Instr.rorAbs 0xFFFF).mnemonic = .ror ∧ (Instr.rorAbs 0xFFFF).operand = .memory (.abs 0xFFFF)) := by decide

theorem witness_MemoryIncrementAndDecrement :
    (Instr.incZpx 0xFF).mnemonic = .inc ∧ (Instr.decAbx 0xFFFF).mnemonic = .dec := by decide

theorem witness_BitTestsOperand : (Instr.bitAbs 0xFFFF).mnemonic = .bit := by decide

/-- The stack pointer stands at 0x00, so that the second push and pull wrap. -/
theorem witness_RtsReturnsToJsrSuccessor :
    ∃ t u : State, (State.reset.setReg .sp 0x00).mem.wf = true ∧
      (∀ sp : Byte, (State.reset.setReg .sp 0x00).isExternal (stackAt sp) = false) ∧
      exec (.jsr 0x1234) (State.reset.setReg .sp 0x00) = .next t ∧ exec .rts (t.setPc 0x1235) = .next u :=
  ⟨_, _, by decide, fun _ => rfl, rfl, rfl⟩

theorem witness_PlpAfterPhpSetsBreak :
    ∃ t u : State, State.reset.mem.wf = true ∧ State.reset.isExternal (stackAt State.reset.sp) = false ∧
      exec .php State.reset = .next t ∧ exec .plp t = .next u :=
  ⟨_, _, by decide, by decide, rfl, rfl⟩

/-- STA is listed as writing no register. -/
theorem witness_UnlistedRegistersUnchanged :
    (∃ t, exec (.staZp 0x10) State.reset = .next t) ∧ (Instr.staZp 0x10).mode ≠ .acc ∧
    (Instr.staZp 0x10).mnemonic ∉ [.lda, .txa, .tya, .pla, .adc, .sbc, .and, .ora, .eor] ∧
    (Instr.staZp 0x10).mnemonic ∉ [.ldx, .tax, .tsx, .inx, .dex] ∧
    (Instr.staZp 0x10).mnemonic ∉ [.ldy, .tay, .iny, .dey] ∧
    (Instr.staZp 0x10).mnemonic ∉ [.txs, .pha, .php, .pla, .plp, .jsr, .rts] ∧
    (Instr.staZp 0x10).mnemonic ∉ transfers :=
  ⟨⟨_, rfl⟩, by decide, by decide, by decide, by decide, by decide, by decide⟩

/-- TXS is listed as writing no flag. -/
theorem witness_UnlistedFlagsUnchanged :
    (∃ t, exec .txs State.reset = .next t) ∧
    Instr.txs.mnemonic ∉ [.adc, .sbc, .cmp, .cpx, .cpy, .asl, .lsr, .rol, .ror, .clc, .sec, .plp] ∧
    Instr.txs.mnemonic ∉ [.lda, .ldx, .ldy, .tax, .tay, .txa, .tya, .tsx, .pla, .adc, .sbc, .cmp, .cpx, .cpy, .and, .ora,
      .eor, .asl, .lsr, .rol, .ror, .inc, .dec, .inx, .iny, .dex, .dey, .bit, .plp] ∧
    Instr.txs.mnemonic ∉ [.cli, .sei, .plp] ∧ Instr.txs.mnemonic ∉ [.cld, .sed, .plp] ∧ Instr.txs.mnemonic ≠ .plp ∧
    Instr.txs.mnemonic ∉ [.adc, .sbc, .bit, .clv, .plp] :=
  ⟨⟨_, rfl⟩, by decide, by decide, by decide, by decide, by decide, by decide⟩

/-- A load, and the accumulator form of a shift. -/
theorem witness_NonStoringFormsLeaveMemory :
    ((∃ t, exec (.ldaZp 0x10) State.reset = .next t) ∧
      (Instr.ldaZp 0x10).mnemonic ∉ [.sta, .stx, .sty, .pha, .php, .jsr] ∧ (Instr.ldaZp 0x10).mnemonic ∉ rmw) ∧
    (∃ t, exec .aslAcc State.reset = .next t) ∧
      Instr.aslAcc.mnemonic ∉ [.sta, .stx, .sty, .pha, .php, .jsr] ∧ Instr.aslAcc.mnemonic ∈ rmw ∧
      Instr.aslAcc.mode = .acc :=
  ⟨⟨⟨_, rfl⟩, by decide, by decide⟩, ⟨_, rfl⟩, by decide, by decide, by decide⟩

/-- A store, and a read-modify-write, at 0x0010, and an address beside it. -/
theorem witness_StoringFormsLeaveOtherBytes :
    ((∃ t, exec (.styZp 0x10) State.reset = .next t) ∧ (Instr.styZp 0x10).mnemonic ∈ [.sta, .stx, .sty] ∧
      (Instr.styZp 0x10).operand = .memory (.zp 0x10)) ∧
    ((∃ t, exec (.incZp 0x10) State.reset = .next t) ∧ (Instr.incZp 0x10).mnemonic ∈ rmw ∧
      (Instr.incZp 0x10).operand = .memory (.zp 0x10)) ∧
    (0x0011 : Address) ≠ (State.reset.resolve (.zp 0x10)).1 :=
  ⟨⟨⟨_, rfl⟩, by decide, by decide⟩, ⟨⟨_, rfl⟩, by decide, by decide⟩, by decide⟩

/-- A push and a call, and an address outside both stack bytes. -/
theorem witness_PushingFormsLeaveOtherBytes :
    ((∃ t, exec .php State.reset = .next t) ∧ Instr.php.mnemonic ∈ [.pha, .php]) ∧
    ((∃ t, exec (.jsr 0x1234) State.reset = .next t) ∧ (Instr.jsr 0x1234).mnemonic = .jsr) ∧
    (0x01FD : Address) ≠ stackAt State.reset.sp ∧ (0x01FD : Address) ≠ stackAt (State.reset.sp - 1) :=
  ⟨⟨⟨_, rfl⟩, by decide⟩, ⟨⟨_, rfl⟩, by decide⟩, by decide, by decide⟩

theorem witness_StoredByteIsTheRegister :
    (∃ t, exec (.staZpx 0xFF) State.reset = .next t) ∧ (Instr.staZpx 0xFF).operand = .memory (.zpx 0xFF) ∧
    (∃ t, exec (.stxZpy 0xFF) State.reset = .next t) ∧ (Instr.stxZpy 0xFF).operand = .memory (.zpy 0xFF) ∧
    (∃ t, exec (.styZpx 0xFF) State.reset = .next t) ∧ (Instr.styZpx 0xFF).operand = .memory (.zpx 0xFF) ∧
    State.reset.mem.wf = true ∧ State.reset.isExternal (State.reset.resolve (.zpx 0xFF)).1 = false :=
  ⟨⟨_, rfl⟩, by decide, ⟨_, rfl⟩, by decide, ⟨_, rfl⟩, by decide, by decide, by decide⟩

end Sys2Proof.Tests
end

section
/-! SUPPORT. The recorded reads are all that an instruction takes from memory (00_scope.md R5; 20_memory.md R37). Every
shared meaning is a chain of questions to the registers, reads of the port and updates of a register, closed by one
ending that updates registers and may write. `Replays` is kept by each link of such a chain, so each meaning is settled
by walking its own chain. Writes stand only in the ending because no instruction reads after it has written. -/

open Sys2Proof Sys2Proof.Machine Sys2Proof.Spec

namespace Sys2Proof.Proofs.RecordedReads

/-- The memory of `u` answers the reads among the accesses `l` with the bytes recorded for them. -/
def Answers (u : State) (l : List Access) : Prop :=
  ∀ (k : Nat) (e : Access), (l.filter (·.kind = .read))[k]? = some e → u.answer k e.addr = e.value

/-- An operation completes, and does the same in every state with the same registers whose memory answers its recorded
reads. -/
def Replays (f : State → Result) : Prop :=
  ∀ s : State, ∃ (t : State) (l : List Access), f s = .next t ∧ t.accesses = s.accesses ++ l ∧
    ∀ u : State, SameCore s u → Answers u l →
      ∃ v : State, f u = .next v ∧ SameCore t v ∧ v.accesses = u.accesses ++ l

/-- The registers, flags and latch of `s` over the memory and the records of `u`: `SameCore s u` says that this is
`u`. -/
def coreOver (s u : State) : State :=
  { s with mem := u.mem, external := u.external, reads := u.reads, accesses := u.accesses }

theorem sameCore_iff (s u : State) : SameCore s u ↔ u = coreOver s u := Iff.rfl

/-- A function of the registers, flags and latch alone. -/
def CoreOnly {α : Type} (q : State → α) : Prop := ∀ s u : State, q (coreOver s u) = q s

theorem CoreOnly.congr {α : Type} {q : State → α} (hq : CoreOnly q) {s u : State} (h : SameCore s u) : q u = q s := by
  rw [(sameCore_iff s u).1 h]
  exact hq s u

theorem coreOnly_reg (r : Reg) : CoreOnly (·.reg r) := fun _ _ => by cases r <;> rfl

/-! ### The links of a chain -/

/-- Once the first of the recorded reads is made, the memory answers the others. -/
theorem Answers.busRead {u : State} {p : Address} {b : Byte} {l : List Access}
    (h : Answers u ({ kind := .read, addr := p, value := b } :: l)) :
    u.answer 0 p = b ∧ Answers (u.busRead p).2 l :=
  ⟨h 0 _ rfl, fun k e he => (State.answer_busRead u p k e.addr).trans (h (k + 1) e he)⟩

/-- A question to the registers. -/
theorem Replays.ask {α : Type} {q : State → α} {g : α → State → Result} (hq : CoreOnly q) (h : ∀ a, Replays (g a)) :
    Replays (fun s => g (q s) s) := by
  intro s
  obtain ⟨t, l, ht, hl, hu⟩ := h (q s) s
  refine ⟨t, l, ht, hl, fun u hsu ha => ?_⟩
  simpa only [hq.congr hsu] using hu u hsu ha

/-- A read: its byte is the recorded one, so that what follows is the same. -/
theorem Replays.read {g : Byte → State → Result} (p : Address) (h : ∀ b, Replays (g b)) :
    Replays (fun s => g (s.busRead p).1 (s.busRead p).2) := by
  intro s
  obtain ⟨t, l, ht, hl, hu⟩ := h (s.busRead p).1 (s.busRead p).2
  refine ⟨t, { kind := .read, addr := p, value := s.answer 0 p } :: l, ht, by simp [hl], fun u hsu ha => ?_⟩
  obtain ⟨hb, ha⟩ := ha.busRead
  have hcore : SameCore (s.busRead p).2 (u.busRead p).2 := by rw [(sameCore_iff s u).1 hsu]; rfl
  obtain ⟨v, hv, htv, hvl⟩ := hu (u.busRead p).2 hcore ha
  exact ⟨v, (congrArg (g · (u.busRead p).2) hb).trans hv, htv, by simp [hvl, hb]⟩

/-- An update of one register before what follows. -/
theorem Replays.setReg {f : State → Result} (r : Reg) (b : Byte) (h : Replays f) :
    Replays (fun s => f (s.setReg r b)) := by
  intro s
  obtain ⟨t, l, ht, hl, hu⟩ := h (s.setReg r b)
  refine ⟨t, l, ht, by simpa using hl, fun u hsu ha => ?_⟩
  have hcore : SameCore (s.setReg r b) (u.setReg r b) := by rw [(sameCore_iff s u).1 hsu]; cases r <;> rfl
  have ha' : Answers (u.setReg r b) l := fun k e he => (State.answer_setReg u r b k e.addr).trans (ha k e he)
  simpa using hu _ hcore ha'

/-- The end of a chain: an update whose accesses `w` and whose effect on the registers come from the registers
alone. -/
theorem Replays.writes {c : State → State} {w : State → List Access} (hw : CoreOnly w)
    (hc : ∀ s u : State, SameCore (c s) (c (coreOver s u))) (ha : ∀ s : State, (c s).accesses = s.accesses ++ w s) :
    Replays (fun s => .next (c s)) := by
  refine fun s => ⟨c s, w s, rfl, ha s, fun u hsu _ => ⟨c u, rfl, ?_, ?_⟩⟩
  · rw [(sameCore_iff s u).1 hsu]
    exact hc s u
  · rw [ha u, hw.congr hsu]

/-- The end of a chain that makes no access. -/
theorem Replays.update {c : State → State} (hc : ∀ s u : State, SameCore (c s) (c (coreOver s u)))
    (ha : ∀ s : State, (c s).accesses = s.accesses) : Replays (fun s => .next (c s)) :=
  .writes (w := fun _ => []) (fun _ _ => rfl) hc fun s => by rw [ha s, List.append_nil]

/-! ### The operations that read -/

section
variable {g : Address → State → Result} (hg : ∀ a, Replays (g a))
include hg

theorem Replays.read16 (lo hi : Address) : Replays (fun s => g (s.read16 lo hi).1 (s.read16 lo hi).2) :=
  .read (g := fun l s => g (word (s.busRead hi).1 l) (s.busRead hi).2) lo fun l =>
    .read (g := fun h s => g (word h l) s) hi fun h => hg (word h l)

/-- The effective address is from the registers and the pointer reads (R73 to R78, R80, R81). -/
theorem Replays.resolve (o : MemOperand) : Replays (fun s => g (s.resolve o).1 (s.resolve o).2) := by
  cases o with
  | zp b => exact hg (zext16 b)
  | zpx b => exact .ask (q := fun s => zext16 (b + s.x)) (fun _ _ => rfl) hg
  | zpy b => exact .ask (q := fun s => zext16 (b + s.y)) (fun _ _ => rfl) hg
  | abs a => exact hg a
  | abx a => exact .ask (q := fun s => a + zext16 s.x) (fun _ _ => rfl) hg
  | aby a => exact .ask (q := fun s => a + zext16 s.y) (fun _ _ => rfl) hg
  | izx b =>
    exact .ask (q := fun s => b + s.x) (g := fun p s => g (s.zpPointer p).1 (s.zpPointer p).2) (fun _ _ => rfl)
      fun p => .read16 hg (zext16 p) (zext16 (p + 1))
  | izy b =>
    exact .read16 (g := fun base s => g (base + zext16 s.y) s)
      (fun base => .ask (q := fun s => base + zext16 s.y) (fun _ _ => rfl) hg) (zext16 b) (zext16 (b + 1))

end

section
variable {g : Byte → State → Result} (hg : ∀ b, Replays (g b))
include hg

theorem Replays.loadOperand (src : Source) : Replays (fun s => g (s.loadOperand src).1 (s.loadOperand src).2) := by
  cases src with
  | immediate v => exact hg v
  | memory o => exact .resolve (g := fun p s => g (s.busRead p).1 (s.busRead p).2) (fun p => .read p hg) o

theorem Replays.pull : Replays (fun s => g s.pull.1 s.pull.2) :=
  .ask (q := fun s => s.sp + 1)
    (g := fun sp s => g ((s.setReg .sp sp).busRead (stackAddr sp)).1 ((s.setReg .sp sp).busRead (stackAddr sp)).2)
    (fun _ _ => rfl) fun sp => .setReg .sp sp (.read (stackAddr sp) hg)

end

/-! ### The endings -/

theorem replays_setFlags (f : Flags) : Replays (fun s => .next (s.setFlags f)) :=
  .update (fun _ _ => rfl) fun _ => rfl

theorem replays_setPc (p : Address) : Replays (fun s => .next (s.setPc p)) := .update (fun _ _ => rfl) fun _ => rfl

theorem replays_setReg (r : Reg) (b : Byte) : Replays (fun s => .next (s.setReg r b)) :=
  .setReg r b (.update (fun _ _ => rfl) fun _ => rfl)

theorem replays_setReg_setZN (r : Reg) (b : Byte) : Replays (fun s => .next ((s.setReg r b).setZN b)) :=
  .setReg r b (.update (c := fun s => s.setZN b) (fun _ _ => rfl) fun _ => rfl)

theorem replays_busWrite (p : Address) (b : Byte) : Replays (fun s => .next (s.busWrite p b)) :=
  .writes (w := fun _ => [{ kind := .write, addr := p, value := b }]) (fun _ _ => rfl) (fun _ _ => rfl) fun _ => rfl

theorem replays_busWrite_setFlags (p : Address) (b : Byte) (f : Flags) :
    Replays (fun s => .next ((s.busWrite p b).setFlags f)) :=
  .writes (w := fun _ => [{ kind := .write, addr := p, value := b }]) (fun _ _ => rfl) (fun _ _ => rfl) fun _ => rfl

theorem replays_push (b : Byte) : Replays (fun s => .next (s.push b)) :=
  .writes (w := fun s => [{ kind := .write, addr := stackAddr s.sp, value := b }]) (fun _ _ => rfl) (fun _ _ => rfl)
    fun _ => rfl

/-! ### The shared meanings -/

theorem load_replays (r : Reg) (src : Source) : Replays (load r src) :=
  .loadOperand (replays_setReg_setZN r) src

theorem store_replays (r : Reg) (o : MemOperand) : Replays (store r o) :=
  .ask (g := fun b s => .next ((s.resolve o).2.busWrite (s.resolve o).1 b)) (coreOnly_reg r) fun b =>
    .resolve (fun p => replays_busWrite p b) o

theorem transfer_replays (src dst : Reg) : Replays (transfer src dst) :=
  .ask (g := fun b s => .next ((s.setReg dst b).setZN b)) (coreOnly_reg src) (replays_setReg_setZN dst)

theorem addCarry_replays (src : Source) : Replays (addCarry src) :=
  .loadOperand (g := fun m s => .next ((s.setReg .a (adc8 s.a m s.flags.c).r).setFlags
    (s.flags.setAdd (adc8 s.a m s.flags.c)))) (fun _ => .update (fun _ _ => rfl) fun _ => rfl) src

theorem subCarry_replays (src : Source) : Replays (subCarry src) :=
  .loadOperand (g := fun m s => .next ((s.setReg .a (adc8 s.a (m ^^^ 0xFF) s.flags.c).r).setFlags
    (s.flags.setAdd (adc8 s.a (m ^^^ 0xFF) s.flags.c)))) (fun _ => .update (fun _ _ => rfl) fun _ => rfl) src

theorem compare_replays (r : Reg) (src : Source) : Replays (compare r src) :=
  .loadOperand (g := fun m s => .next (s.setFlags (s.flags.setCmp (s.reg r) m)))
    (fun m => .ask (q := fun s => s.reg r) (g := fun b s => .next (s.setFlags (s.flags.setCmp b m))) (coreOnly_reg r)
      fun _ => .update (fun _ _ => rfl) fun _ => rfl) src

theorem logical_replays (op : Byte → Byte → Byte) (src : Source) : Replays (logical op src) :=
  .loadOperand (g := fun m s => .next ((s.setReg .a (op s.a m)).setZN (op s.a m)))
    (fun _ => .update (fun _ _ => rfl) fun _ => rfl) src

theorem bitTest_replays (o : MemOperand) : Replays (bitTest o) :=
  .loadOperand (g := fun m s => .next (s.setFlags (s.flags.setBitTest s.a m)))
    (fun _ => .update (fun _ _ => rfl) fun _ => rfl) (.memory o)

/-- Both forms: in memory the flags are those of the state before, the byte is the one read. -/
theorem shift_replays (op : Bool → Byte → Shifted) (tgt : Target) : Replays (shift op tgt) := by
  cases tgt with
  | accumulator => exact .update (fun _ _ => rfl) fun _ => rfl
  | memory o =>
    exact .ask (q := State.flags)
      (g := fun f s => .next ((((s.resolve o).2.busRead (s.resolve o).1).2.busWrite (s.resolve o).1
        (op f.c ((s.resolve o).2.busRead (s.resolve o).1).1).r).setFlags
        (f.setShift (op f.c ((s.resolve o).2.busRead (s.resolve o).1).1))))
      (fun _ _ => rfl) fun f =>
        .resolve (g := fun p s => .next (((s.busRead p).2.busWrite p (op f.c (s.busRead p).1).r).setFlags
          (f.setShift (op f.c (s.busRead p).1))))
          (fun p => .read p fun b => replays_busWrite_setFlags p (op f.c b).r (f.setShift (op f.c b))) o

theorem modify_replays (op : Byte → Byte) (o : MemOperand) : Replays (modify op o) :=
  .resolve (g := fun p s => .next (((s.busRead p).2.busWrite p (op (s.busRead p).1)).setZN (op (s.busRead p).1)))
    (fun p => .read (g := fun b s => .next ((s.busWrite p (op b)).setZN (op b))) p fun b =>
      .ask (q := fun s => s.flags.setZN (op b)) (fun _ _ => rfl) (replays_busWrite_setFlags p (op b))) o

theorem modifyReg_replays (op : Byte → Byte) (r : Reg) : Replays (modifyReg op r) :=
  .ask (g := fun b s => .next ((s.setReg r (op b)).setZN (op b))) (coreOnly_reg r) fun b =>
    replays_setReg_setZN r (op b)

theorem branch_replays (c : Bool) (d : Byte) : Replays (branch c d) := by
  cases c with
  | true => exact .update (c := fun s => s.setPc (relTarget s.pc d)) (fun _ _ => rfl) fun _ => rfl
  | false => exact .update (c := id) (fun _ _ => rfl) fun _ => rfl

/-! ### The stack and the indirect jump -/

theorem execPla_replays : Replays execPla := .pull (replays_setReg_setZN .a)

theorem execPlp_replays : Replays execPlp := .pull fun b => replays_setFlags (Flags.unpack b)

theorem execRts_replays : Replays execRts :=
  .pull (g := fun lo s => .next (s.pull.2.setPc (word s.pull.1 lo + 1))) fun lo =>
    .pull fun hi => replays_setPc (word hi lo + 1)

theorem execJmpInd_replays (p : Address) : Replays (execJmpInd p) := .read16 replays_setPc p (samePageNext p)

theorem execJsr_replays (a : Address) : Replays (execJsr a) :=
  .writes
    (w := fun s => [{ kind := .write, addr := stackAddr s.sp, value := highByte (s.pc - 1) },
      { kind := .write, addr := stackAddr (s.sp - 1), value := lowByte (s.pc - 1) }])
    (fun _ _ => rfl) (fun _ _ => rfl) fun _ => List.append_assoc _ _ _

/-! ### Every instruction -/

theorem exec_replays (i : Instr) : Replays (exec i) := by
  cases i
  case ldaImm | ldaZp | ldaZpx | ldaAbs | ldaAbx | ldaAby | ldaIzx | ldaIzy | ldxImm | ldxZp | ldxZpy | ldxAbs |
      ldxAby | ldyImm | ldyZp | ldyZpx | ldyAbs | ldyAbx =>
    exact load_replays _ _
  case staZp | staZpx | staAbs | staAbx | staAby | staIzx | staIzy | stxZp | stxZpy | stxAbs | styZp | styZpx |
      styAbs =>
    exact store_replays _ _
  case tax | tay | txa | tya | tsx => exact transfer_replays _ _
  case txs => exact .ask (q := State.x) (fun _ _ => rfl) (replays_setReg .sp)
  case adcImm | adcZp | adcZpx | adcAbs | adcAbx | adcAby | adcIzx | adcIzy => exact addCarry_replays _
  case sbcImm | sbcZp | sbcZpx | sbcAbs | sbcAbx | sbcAby | sbcIzx | sbcIzy => exact subCarry_replays _
  case cmpImm | cmpZp | cmpZpx | cmpAbs | cmpAbx | cmpAby | cmpIzx | cmpIzy | cpxImm | cpxZp | cpxAbs | cpyImm |
      cpyZp | cpyAbs =>
    exact compare_replays _ _
  case andImm | andZp | andZpx | andAbs | andAbx | andAby | andIzx | andIzy | oraImm | oraZp | oraZpx | oraAbs |
      oraAbx | oraAby | oraIzx | oraIzy | eorImm | eorZp | eorZpx | eorAbs | eorAbx | eorAby | eorIzx | eorIzy =>
    exact logical_replays _ _
  case aslZp | aslZpx | aslAbs | aslAbx => exact shift_replays (fun _ v => asl8 v) (.memory _)
  case aslAcc => exact shift_replays (fun _ v => asl8 v) .accumulator
  case lsrZp | lsrZpx | lsrAbs | lsrAbx => exact shift_replays (fun _ v => lsr8 v) (.memory _)
  case lsrAcc => exact shift_replays (fun _ v => lsr8 v) .accumulator
  case rolZp | rolZpx | rolAbs | rolAbx => exact shift_replays (fun cin v => rol8 v cin) (.memory _)
  case rolAcc => exact shift_replays (fun cin v => rol8 v cin) .accumulator
  case rorZp | rorZpx | rorAbs | rorAbx => exact shift_replays (fun cin v => ror8 v cin) (.memory _)
  case rorAcc => exact shift_replays (fun cin v => ror8 v cin) .accumulator
  case incZp | incZpx | incAbs | incAbx => exact modify_replays (· + 1) _
  case decZp | decZpx | decAbs | decAbx => exact modify_replays (· - 1) _
  case inx | iny => exact modifyReg_replays (· + 1) _
  case dex | dey => exact modifyReg_replays (· - 1) _
  case bitZp | bitAbs => exact bitTest_replays _
  case bcc d => exact .ask (q := fun s => !s.flags.c) (fun _ _ => rfl) (branch_replays · d)
  case bcs d => exact .ask (q := fun s => s.flags.c) (fun _ _ => rfl) (branch_replays · d)
  case beq d => exact .ask (q := fun s => s.flags.z) (fun _ _ => rfl) (branch_replays · d)
  case bne d => exact .ask (q := fun s => !s.flags.z) (fun _ _ => rfl) (branch_replays · d)
  case bmi d => exact .ask (q := fun s => s.flags.n) (fun _ _ => rfl) (branch_replays · d)
  case bpl d => exact .ask (q := fun s => !s.flags.n) (fun _ _ => rfl) (branch_replays · d)
  case bvc d => exact .ask (q := fun s => !s.flags.v) (fun _ _ => rfl) (branch_replays · d)
  case bvs d => exact .ask (q := fun s => s.flags.v) (fun _ _ => rfl) (branch_replays · d)
  case jmpAbs => exact replays_setPc _
  case jmpInd => exact execJmpInd_replays _
  case jsr => exact execJsr_replays _
  case rts => exact execRts_replays
  case pha => exact .ask (q := State.a) (fun _ _ => rfl) replays_push
  case pla => exact execPla_replays
  case php => exact .ask (q := fun s => s.flags.pack ||| 0x30) (fun _ _ => rfl) replays_push
  case plp => exact execPlp_replays
  case nop => exact .update (c := id) (fun _ _ => rfl) fun _ => rfl
  case clc | sec | cli | sei | clv | cld | sed => exact .update (fun _ _ => rfl) fun _ => rfl

/-- Settles O18: every instruction replays, and its list of accesses is the only one that follows those before it. -/
theorem recordedReadsAreTheOnlyMemoryInputs : Obligations.RecordedReadsAreTheOnlyMemoryInputs := by
  unfold Obligations.RecordedReadsAreTheOnlyMemoryInputs
  intro i s t u l ht hl hsu ha
  obtain ⟨t', l', ht', hl', hu⟩ := exec_replays i s
  cases ht.symm.trans ht'
  cases List.append_cancel_left (hl.symm.trans hl')
  exact hu u hsu ha

end Sys2Proof.Proofs.RecordedReads
end

section
/-! SUPPORT. More laws of the state, in the form of Sys2Proof/Laws/: what a register write leaves in each other
register, what a flag computation leaves in each flag (R20, R110 to R113, R127, R136), and what every instruction
keeps. -/

namespace Sys2Proof.Machine

section SetRegOther
variable (s : State) (v : Byte)

@[simp] theorem State.setReg_a_x : (s.setReg .a v).x = s.x := rfl
@[simp] theorem State.setReg_a_y : (s.setReg .a v).y = s.y := rfl
@[simp] theorem State.setReg_a_sp : (s.setReg .a v).sp = s.sp := rfl
@[simp] theorem State.setReg_x_a : (s.setReg .x v).a = s.a := rfl
@[simp] theorem State.setReg_x_y : (s.setReg .x v).y = s.y := rfl
@[simp] theorem State.setReg_x_sp : (s.setReg .x v).sp = s.sp := rfl
@[simp] theorem State.setReg_y_a : (s.setReg .y v).a = s.a := rfl
@[simp] theorem State.setReg_y_x : (s.setReg .y v).x = s.x := rfl
@[simp] theorem State.setReg_y_sp : (s.setReg .y v).sp = s.sp := rfl
@[simp] theorem State.setReg_sp_a : (s.setReg .sp v).a = s.a := rfl
@[simp] theorem State.setReg_sp_x : (s.setReg .sp v).x = s.x := rfl
@[simp] theorem State.setReg_sp_y : (s.setReg .sp v).y = s.y := rfl

end SetRegOther

section FlagComputations
variable (f : Flags) (v : Byte)

@[simp] theorem Flags.setZN_c : (f.setZN v).c = f.c := rfl
@[simp] theorem Flags.setZN_i : (f.setZN v).i = f.i := rfl
@[simp] theorem Flags.setZN_d : (f.setZN v).d = f.d := rfl
@[simp] theorem Flags.setZN_b : (f.setZN v).b = f.b := rfl
@[simp] theorem Flags.setZN_v : (f.setZN v).v = f.v := rfl

@[simp] theorem Flags.setAdd_i (r : AddResult) : (f.setAdd r).i = f.i := rfl
@[simp] theorem Flags.setAdd_d (r : AddResult) : (f.setAdd r).d = f.d := rfl
@[simp] theorem Flags.setAdd_b (r : AddResult) : (f.setAdd r).b = f.b := rfl

@[simp] theorem Flags.setCmp_i (reg : Byte) : (f.setCmp reg v).i = f.i := rfl
@[simp] theorem Flags.setCmp_d (reg : Byte) : (f.setCmp reg v).d = f.d := rfl
@[simp] theorem Flags.setCmp_b (reg : Byte) : (f.setCmp reg v).b = f.b := rfl
@[simp] theorem Flags.setCmp_v (reg : Byte) : (f.setCmp reg v).v = f.v := rfl

@[simp] theorem Flags.setBitTest_c (a : Byte) : (f.setBitTest a v).c = f.c := rfl
@[simp] theorem Flags.setBitTest_i (a : Byte) : (f.setBitTest a v).i = f.i := rfl
@[simp] theorem Flags.setBitTest_d (a : Byte) : (f.setBitTest a v).d = f.d := rfl
@[simp] theorem Flags.setBitTest_b (a : Byte) : (f.setBitTest a v).b = f.b := rfl

@[simp] theorem Flags.setShift_i (r : Shifted) : (f.setShift r).i = f.i := rfl
@[simp] theorem Flags.setShift_d (r : Shifted) : (f.setShift r).d = f.d := rfl
@[simp] theorem Flags.setShift_b (r : Shifted) : (f.setShift r).b = f.b := rfl
@[simp] theorem Flags.setShift_v (r : Shifted) : (f.setShift r).v = f.v := rfl

end FlagComputations

/-- Every instruction answers a next state and keeps the fault latch, the windows and the canonical form. -/
theorem exec_kept (i : Instr) (s : State) : ∃ t, exec i s = .next t ∧ Kept s t := by
  have hs := exec_shape i s
  generalize exec i s = r at hs
  cases hs
  case load => exact load_kept _ _ s
  case store => exact store_kept _ _ s
  case transfer => exact transfer_kept _ _ s
  case adc => exact addCarry_kept _ s
  case sbc => exact subCarry_kept _ s
  case compare => exact compare_kept _ _ s
  case logical => exact logical_kept _ _ s
  case shift => exact shift_kept _ _ s
  case modify => exact modify_kept _ _ s
  case modifyReg => exact modifyReg_kept _ _ s
  case bit => exact bitTest_kept _ s
  case branch => exact branch_kept _ _ s
  case txs => exact ⟨_, rfl, kept_setReg s _ _⟩
  case jmpAbs => exact ⟨_, rfl, kept_setPc s _⟩
  case jmpInd => exact ⟨_, rfl, (kept_read16 s _ _).trans (kept_setPc _ _)⟩
  case jsr => exact ⟨_, rfl, ((kept_push s _).trans (kept_push _ _)).trans (kept_setPc _ _)⟩
  case rts => exact ⟨_, rfl, ((kept_pull s).trans (kept_pull _)).trans (kept_setPc _ _)⟩
  case pha | php => exact ⟨_, rfl, kept_push s _⟩
  case pla => exact ⟨_, rfl, ((kept_pull s).trans (kept_setReg _ _ _)).trans (kept_setZN _ _)⟩
  case plp => exact ⟨_, rfl, (kept_pull s).trans (kept_setFlags _ _)⟩
  case nop => exact ⟨_, rfl, Kept.refl s⟩
  case flag => exact ⟨_, rfl, kept_setFlags s _⟩

/-- What an instruction answers keeps what `Kept` says. -/
theorem kept_of_exec {i : Instr} {s t : State} (h : exec i s = .next t) : Kept s t := by
  obtain ⟨u, hu, hk⟩ := exec_kept i s
  cases h.symm.trans hu
  exact hk

end Sys2Proof.Machine
end

section
/-! SUPPORT. The register frame and the flag frame over all instructions (the tables of 10_state.md R11 and R20), by the
shape of the instruction: what its result leaves unchanged, and for the rest that the table lists its mnemonic. -/

open Sys2Proof Sys2Proof.Machine Sys2Proof.Spec

namespace Sys2Proof.Proofs.Frames

/-- The accumulator form is the one with the accumulator mode (R71, R127). -/
theorem mode_of_target_accumulator {o : Operand} (h : o.target? = some .accumulator) : o.mode = .acc := by
  cases o with
  | accumulator => rfl
  | implied | immediate _ | memory _ | indirect _ | relative _ => cases h

/-- Settles O52, by the shape of the instruction. -/
theorem unlistedRegistersUnchanged : Obligations.UnlistedRegistersUnchanged := by
  unfold Obligations.UnlistedRegistersUnchanged
  intro i s t h
  have hs := exec_shape i s
  rw [h] at hs
  generalize hr : (Host.Outcome.next t : Result) = r at hs
  cases hs
  case store | compare | modify | bit | nop | flag => cases hr; simp
  case load hm _ _ =>
    cases hr
    simp only [List.mem_cons, Prod.mk.injEq, List.not_mem_nil, or_false] at hm
    rcases hm with ⟨hm, rfl⟩ | ⟨hm, rfl⟩ | ⟨hm, rfl⟩ <;> simp [hm]
  case transfer hm _ =>
    cases hr
    simp only [List.mem_cons, Prod.mk.injEq, List.not_mem_nil, or_false] at hm
    rcases hm with ⟨hm, -, rfl⟩ | ⟨hm, -, rfl⟩ | ⟨hm, -, rfl⟩ | ⟨hm, -, rfl⟩ | ⟨hm, -, rfl⟩ <;> simp [hm]
  case adc hm _ _ | sbc hm _ _ => cases hr; simp [hm]
  case logical hm _ _ =>
    cases hr
    rcases hm with ⟨hm, -⟩ | ⟨hm, -⟩ | ⟨hm, -⟩ <;> simp [hm]
  case shift tgt _ ho =>
    cases tgt with
    | accumulator => cases hr; simp [Instr.mode, mode_of_target_accumulator ho]
    | memory o => cases hr; simp
  case modifyReg hm =>
    cases hr
    rcases hm with ⟨rfl, rfl, -⟩ | ⟨rfl, rfl, -⟩ | ⟨rfl, rfl, -⟩ | ⟨rfl, rfl, -⟩ <;> simp [Instr.mnemonic]
  case branch c _ hm _ =>
    have hmt : i.mnemonic ∈ transfers :=
      List.mem_append_left [Mnemonic.jmp, .jsr, .rts] (List.mem_map_of_mem (f := Prod.fst) hm)
    cases c <;> cases hr <;> simp [hmt]
  case txs hi | pha hi | php hi | pla hi | plp hi => cases hr; subst hi; simp [Instr.mnemonic]
  case jmpAbs hi | jmpInd hi | jsr hi | rts hi => cases hr; subst hi; simp [Instr.mnemonic, transfers]

/-- Settles O53, by the shape of the instruction. -/
theorem unlistedFlagsUnchanged : Obligations.UnlistedFlagsUnchanged := by
  unfold Obligations.UnlistedFlagsUnchanged
  intro i s t h
  have hs := exec_shape i s
  rw [h] at hs
  generalize hr : (Host.Outcome.next t : Result) = r at hs
  cases hs
  case store | txs | pha | php | jmpAbs | jmpInd | jsr | rts | nop => cases hr; simp
  case branch c _ _ _ => cases c <;> cases hr <;> simp
  case load hm _ _ | compare hm _ _ =>
    cases hr
    simp only [List.mem_cons, Prod.mk.injEq, List.not_mem_nil, or_false] at hm
    rcases hm with ⟨hm, -⟩ | ⟨hm, -⟩ | ⟨hm, -⟩ <;> simp [hm]
  case transfer hm _ =>
    cases hr
    simp only [List.mem_cons, Prod.mk.injEq, List.not_mem_nil, or_false] at hm
    rcases hm with ⟨hm, -⟩ | ⟨hm, -⟩ | ⟨hm, -⟩ | ⟨hm, -⟩ | ⟨hm, -⟩ <;> simp [hm]
  case adc hm _ _ | sbc hm _ _ => cases hr; simp [hm]
  case bit hm _ => cases hr; simp [hm]
  case logical hm _ _ =>
    cases hr
    rcases hm with ⟨hm, -⟩ | ⟨hm, -⟩ | ⟨hm, -⟩ <;> simp [hm]
  case shift tgt hm _ =>
    cases tgt <;> cases hr <;> rcases hm with ⟨hm, -⟩ | ⟨hm, -⟩ | ⟨hm, -⟩ | ⟨hm, -⟩ <;> simp [hm]
  case modify hm _ =>
    cases hr
    rcases hm with ⟨hm, -⟩ | ⟨hm, -⟩ <;> simp [hm]
  case modifyReg hm =>
    cases hr
    rcases hm with ⟨rfl, -⟩ | ⟨rfl, -⟩ | ⟨rfl, -⟩ | ⟨rfl, -⟩ <;> simp [Instr.mnemonic]
  case flag hm =>
    cases hr
    simp only [List.mem_cons, Prod.mk.injEq, List.not_mem_nil, or_false] at hm
    rcases hm with ⟨rfl, rfl⟩ | ⟨rfl, rfl⟩ | ⟨rfl, rfl⟩ | ⟨rfl, rfl⟩ | ⟨rfl, rfl⟩ | ⟨rfl, rfl⟩ | ⟨rfl, rfl⟩ <;>
      simp [Instr.mnemonic]
  case pla hi | plp hi => cases hr; subst hi; simp [Instr.mnemonic]

end Sys2Proof.Proofs.Frames
end

section
/-! SUPPORT. `I`, `D`, `B` and the record of the fault latch reach no register, no other flag and no access (10_state.md
R21, R22). Each shared meaning is run beside itself in the state with other such fields: every operation carries the
difference along, so that the results differ in the same fields alone. -/

open Sys2Proof Sys2Proof.Machine Sys2Proof.Spec

namespace Sys2Proof.Proofs.StorageOnly

/-- The state with other flags and another record of the fault latch. -/
def withHidden (s : State) (f : Flags) (op : Byte) (p : Address) : State :=
  { s with flags := f, faultOpcode := op, faultPc := p }

/-- A relation of flags that agree in all that the instructions test and compute, and that every flag write keeps. -/
structure Congruence (E : Flags → Flags → Prop) : Prop where
  refl : ∀ f, E f f
  c : ∀ {f g}, E f g → g.c = f.c
  z : ∀ {f g}, E f g → g.z = f.z
  v : ∀ {f g}, E f g → g.v = f.v
  n : ∀ {f g}, E f g → g.n = f.n
  computed : ∀ {f g}, E f g → ∀ c z v n : Bool, E { f with c, z, v, n } { g with c, z, v, n }
  setI : ∀ {f g}, E f g → ∀ x : Bool, E { f with i := x } { g with i := x }
  setD : ∀ {f g}, E f g → ∀ x : Bool, E { f with d := x } { g with d := x }

/-- The operation completes, and in the state with related flags and another record it does the same. -/
def Ignores (E : Flags → Flags → Prop) (m : State → Result) : Prop :=
  ∀ (s : State) (f : Flags) (op : Byte) (p : Address), E s.flags f →
    ∃ (t : State) (g : Flags), m s = .next t ∧ m (withHidden s f op p) = .next (withHidden t g op p) ∧ E t.flags g

/-! ### The named operations carry the difference along -/

section
variable (s : State) (f : Flags) (op : Byte) (p : Address)

@[simp] theorem reg_withHidden (r : Reg) : (withHidden s f op p).reg r = s.reg r := by cases r <;> rfl

@[simp] theorem setReg_withHidden (r : Reg) (v : Byte) :
    (withHidden s f op p).setReg r v = withHidden (s.setReg r v) f op p := by cases r <;> rfl

@[simp] theorem resolve_withHidden (o : MemOperand) :
    (withHidden s f op p).resolve o = ((s.resolve o).1, withHidden (s.resolve o).2 f op p) := by cases o <;> rfl

@[simp] theorem busRead_withHidden (q : Address) :
    (withHidden s f op p).busRead q = ((s.busRead q).1, withHidden (s.busRead q).2 f op p) := rfl

@[simp] theorem loadOperand_withHidden (src : Source) :
    (withHidden s f op p).loadOperand src = ((s.loadOperand src).1, withHidden (s.loadOperand src).2 f op p) := by
  cases src with
  | immediate v => rfl
  | memory o => simp [State.loadOperand_memory]

@[simp] theorem busWrite_withHidden (q : Address) (v : Byte) :
    (withHidden s f op p).busWrite q v = withHidden (s.busWrite q v) f op p := rfl

@[simp] theorem setPc_withHidden (q : Address) : (withHidden s f op p).setPc q = withHidden (s.setPc q) f op p := rfl

@[simp] theorem setFlags_withHidden (g : Flags) : (withHidden s f op p).setFlags g = withHidden s g op p := rfl

@[simp] theorem setZN_withHidden (v : Byte) : (withHidden s f op p).setZN v = withHidden s (f.setZN v) op p := rfl

@[simp] theorem push_withHidden (v : Byte) : (withHidden s f op p).push v = withHidden (s.push v) f op p := rfl

@[simp] theorem pull_withHidden : (withHidden s f op p).pull = (s.pull.1, withHidden s.pull.2 f op p) := rfl

@[simp] theorem withHidden_setFlags (g : Flags) : withHidden (s.setFlags g) f op p = withHidden s f op p := rfl

@[simp] theorem withHidden_setZN (v : Byte) : withHidden (s.setZN v) f op p = withHidden s f op p := rfl

@[simp] theorem withHidden_flags : (withHidden s f op p).flags = f := rfl

@[simp] theorem withHidden_a : (withHidden s f op p).a = s.a := rfl

end

/-! ### The flag computations keep the relation -/

section
variable {E : Flags → Flags → Prop} (hE : Congruence E) {f g : Flags} (h : E f g)
include hE h

theorem Congruence.setZN (v : Byte) : E (f.setZN v) (g.setZN v) := by
  simpa only [Flags.setZN, hE.c h, hE.v h] using hE.computed h f.c (v == 0x00) f.v (bit v 7)

theorem Congruence.setAdd (r : AddResult) : E (f.setAdd r) (g.setAdd r) :=
  hE.computed h r.carry (r.r == 0x00) r.overflow (bit r.r 7)

theorem Congruence.setShift (r : Shifted) : E (f.setShift r) (g.setShift r) := by
  simpa only [Flags.setShift, Flags.setZN, hE.v h] using hE.computed h r.carry (r.r == 0x00) f.v (bit r.r 7)

theorem Congruence.setCmp (reg m : Byte) : E (f.setCmp reg m) (g.setCmp reg m) := by
  simpa only [Flags.setCmp, hE.v h] using
    hE.computed h (decide (m.toNat ≤ reg.toNat)) (reg == m) f.v (bit (reg - m) 7)

theorem Congruence.setBitTest (a m : Byte) : E (f.setBitTest a m) (g.setBitTest a m) := by
  simpa only [Flags.setBitTest, hE.c h] using hE.computed h f.c ((a &&& m) == 0x00) (bit m 6) (bit m 7)

theorem Congruence.setC (x : Bool) : E { f with c := x } { g with c := x } := by
  simpa only [hE.z h, hE.v h, hE.n h] using hE.computed h x f.z f.v f.n

theorem Congruence.setV (x : Bool) : E { f with v := x } { g with v := x } := by
  simpa only [hE.c h, hE.z h, hE.n h] using hE.computed h f.c f.z x f.n

end

/-! ### The shared meanings -/

theorem store_ignores {E : Flags → Flags → Prop} (r : Reg) (o : MemOperand) : Ignores E (store r o) :=
  fun s f _ _ h => ⟨_, f, rfl, by simp [store], by simpa using h⟩

section
variable {E : Flags → Flags → Prop} (hE : Congruence E)
include hE

theorem load_ignores (r : Reg) (src : Source) : Ignores E (load r src) := fun s f op p h =>
  ⟨_, f.setZN (s.loadOperand src).1, rfl, by simp [load], by simpa using hE.setZN h _⟩

theorem transfer_ignores (src dst : Reg) : Ignores E (transfer src dst) := fun s f op p h =>
  ⟨_, f.setZN (s.reg src), rfl, by simp [transfer], by simpa using hE.setZN h _⟩

theorem addCarry_ignores (src : Source) : Ignores E (addCarry src) := fun s f op p h => by
  have hc : f.c = s.flags.c := hE.c h
  exact ⟨_, f.setAdd (adc8 s.a (s.loadOperand src).1 f.c), rfl, by simp [addCarry, hc],
    by simpa [hc] using hE.setAdd h _⟩

theorem subCarry_ignores (src : Source) : Ignores E (subCarry src) := fun s f op p h => by
  have hc : f.c = s.flags.c := hE.c h
  exact ⟨_, f.setAdd (adc8 s.a ((s.loadOperand src).1 ^^^ 0xFF) f.c), rfl, by simp [subCarry, hc],
    by simpa [hc] using hE.setAdd h _⟩

theorem compare_ignores (r : Reg) (src : Source) : Ignores E (compare r src) := fun s f op p h =>
  ⟨_, f.setCmp ((s.loadOperand src).2.reg r) (s.loadOperand src).1, rfl, by simp [Machine.compare],
    by simpa using hE.setCmp h _ _⟩

theorem logical_ignores (o : Byte → Byte → Byte) (src : Source) : Ignores E (logical o src) := fun s f op p h =>
  ⟨_, f.setZN (o (s.loadOperand src).2.a (s.loadOperand src).1), rfl, by simp [logical],
    by simpa using hE.setZN h _⟩

theorem bitTest_ignores (o : MemOperand) : Ignores E (bitTest o) := fun s f op p h =>
  ⟨_, f.setBitTest (s.loadOperand (.memory o)).2.a (s.loadOperand (.memory o)).1, rfl, by simp [bitTest],
    by simpa using hE.setBitTest h _ _⟩

theorem shift_ignores (o : Bool → Byte → Shifted) (tgt : Target) : Ignores E (shift o tgt) := fun s f op p h => by
  have hc : f.c = s.flags.c := hE.c h
  cases tgt with
  | accumulator =>
    exact ⟨_, f.setShift (o f.c s.a), rfl, by simp [shift, hc], by simpa [hc] using hE.setShift h _⟩
  | memory m =>
    exact ⟨_, f.setShift (o f.c ((s.resolve m).2.busRead (s.resolve m).1).1), rfl, by simp [shift, hc],
      by simpa [hc] using hE.setShift h _⟩

theorem modify_ignores (o : Byte → Byte) (m : MemOperand) : Ignores E (modify o m) := fun s f op p h =>
  ⟨_, f.setZN (o ((s.resolve m).2.busRead (s.resolve m).1).1), rfl, by simp [Machine.modify],
    by simpa using hE.setZN h _⟩

theorem modifyReg_ignores (o : Byte → Byte) (r : Reg) : Ignores E (modifyReg o r) := fun s f op p h =>
  ⟨_, f.setZN (o (s.reg r)), rfl, by simp [modifyReg], by simpa using hE.setZN h _⟩

theorem execPla_ignores : Ignores E execPla := fun s f op p h =>
  ⟨_, f.setZN s.pull.1, rfl, by simp [execPla], by simpa using hE.setZN h _⟩

end

/-! ### Every instruction -/

/-- A branch on a tested flag. -/
theorem branch_ignores {E : Flags → Flags → Prop} {q : Flags → Bool} (hq : ∀ {f g}, E f g → q g = q f) (d : Byte) :
    Ignores E (fun s => branch (q s.flags) d s) := fun s f op p h => by
  refine ⟨_, f, rfl, ?_, ?_⟩
  · simp only [branch, withHidden_flags, hq h]
    cases q s.flags <;> rfl
  · cases q s.flags <;> exact h

/-- Every instruction ignores the flags that are storage only and the record of the latch, PHP if the byte that it
pushes does. -/
theorem exec_ignores {E : Flags → Flags → Prop} (hE : Congruence E) {i : Instr}
    (hphp : i = .php → ∀ f g : Flags, E f g → g.pack ||| 0x30 = f.pack ||| 0x30) : Ignores E (exec i) := by
  cases i
  case ldaImm | ldaZp | ldaZpx | ldaAbs | ldaAbx | ldaAby | ldaIzx | ldaIzy | ldxImm | ldxZp | ldxZpy | ldxAbs |
      ldxAby | ldyImm | ldyZp | ldyZpx | ldyAbs | ldyAbx =>
    exact load_ignores hE _ _
  case staZp | staZpx | staAbs | staAbx | staAby | staIzx | staIzy | stxZp | stxZpy | stxAbs | styZp | styZpx |
      styAbs =>
    exact store_ignores _ _
  case tax | tay | txa | tya | tsx => exact transfer_ignores hE _ _
  case adcImm | adcZp | adcZpx | adcAbs | adcAbx | adcAby | adcIzx | adcIzy => exact addCarry_ignores hE _
  case sbcImm | sbcZp | sbcZpx | sbcAbs | sbcAbx | sbcAby | sbcIzx | sbcIzy => exact subCarry_ignores hE _
  case cmpImm | cmpZp | cmpZpx | cmpAbs | cmpAbx | cmpAby | cmpIzx | cmpIzy | cpxImm | cpxZp | cpxAbs | cpyImm |
      cpyZp | cpyAbs =>
    exact compare_ignores hE _ _
  case andImm | andZp | andZpx | andAbs | andAbx | andAby | andIzx | andIzy | oraImm | oraZp | oraZpx | oraAbs |
      oraAbx | oraAby | oraIzx | oraIzy | eorImm | eorZp | eorZpx | eorAbs | eorAbx | eorAby | eorIzx | eorIzy =>
    exact logical_ignores hE _ _
  case aslZp | aslZpx | aslAbs | aslAbx => exact shift_ignores hE (fun _ v => asl8 v) (.memory _)
  case aslAcc => exact shift_ignores hE (fun _ v => asl8 v) .accumulator
  case lsrZp | lsrZpx | lsrAbs | lsrAbx => exact shift_ignores hE (fun _ v => lsr8 v) (.memory _)
  case lsrAcc => exact shift_ignores hE (fun _ v => lsr8 v) .accumulator
  case rolZp | rolZpx | rolAbs | rolAbx => exact shift_ignores hE (fun cin v => rol8 v cin) (.memory _)
  case rolAcc => exact shift_ignores hE (fun cin v => rol8 v cin) .accumulator
  case rorZp | rorZpx | rorAbs | rorAbx => exact shift_ignores hE (fun cin v => ror8 v cin) (.memory _)
  case rorAcc => exact shift_ignores hE (fun cin v => ror8 v cin) .accumulator
  case incZp | incZpx | incAbs | incAbx => exact modify_ignores hE (· + 1) _
  case decZp | decZpx | decAbs | decAbx => exact modify_ignores hE (· - 1) _
  case inx | iny => exact modifyReg_ignores hE (· + 1) _
  case dex | dey => exact modifyReg_ignores hE (· - 1) _
  case bitZp | bitAbs => exact bitTest_ignores hE _
  case bcc d => exact branch_ignores (q := fun f => !f.c) (fun h => congrArg (!·) (hE.c h)) d
  case bcs d => exact branch_ignores (q := fun f => f.c) (fun h => hE.c h) d
  case beq d => exact branch_ignores (q := fun f => f.z) (fun h => hE.z h) d
  case bne d => exact branch_ignores (q := fun f => !f.z) (fun h => congrArg (!·) (hE.z h)) d
  case bmi d => exact branch_ignores (q := fun f => f.n) (fun h => hE.n h) d
  case bpl d => exact branch_ignores (q := fun f => !f.n) (fun h => congrArg (!·) (hE.n h)) d
  case bvc d => exact branch_ignores (q := fun f => !f.v) (fun h => congrArg (!·) (hE.v h)) d
  case bvs d => exact branch_ignores (q := fun f => f.v) (fun h => hE.v h) d
  case txs | jmpAbs | jmpInd | jsr | rts | pha | nop => exact fun s f _ _ h => ⟨_, f, rfl, rfl, h⟩
  case pla => exact execPla_ignores hE
  case php =>
    exact fun s f op p h =>
      ⟨_, f, rfl, by simp only [exec_php, withHidden_flags, push_withHidden, hphp rfl _ _ h], h⟩
  case plp => exact fun s f _ _ h => ⟨_, Flags.unpack s.pull.1, rfl, rfl, hE.refl _⟩
  case clc | sec => exact fun s f _ _ h => ⟨_, _, rfl, rfl, hE.setC h _⟩
  case cli | sei => exact fun s f _ _ h => ⟨_, _, rfl, rfl, hE.setI h _⟩
  case clv => exact fun s f _ _ h => ⟨_, _, rfl, rfl, hE.setV h _⟩
  case cld | sed => exact fun s f _ _ h => ⟨_, _, rfl, rfl, hE.setD h _⟩

/-! ### The three relations: equal flags, flags that differ in `B`, and in `I`, `D` and `B` -/

/-- Flags that differ at most in `B`. -/
def FlagsSameButB (f g : Flags) : Prop := g = { f with b := g.b }

/-- Flags that differ at most in `I`, `D` and `B`. -/
def FlagsSameButIDB (f g : Flags) : Prop := g = { f with i := g.i, d := g.d, b := g.b }

theorem congruence_eq : Congruence Eq where
  refl _ := rfl
  c h := by rw [h]
  z h := by rw [h]
  v h := by rw [h]
  n h := by rw [h]
  computed h _ _ _ _ := by rw [h]
  setI h _ := by rw [h]
  setD h _ := by rw [h]

theorem congruence_flagsSameButB : Congruence FlagsSameButB where
  refl _ := rfl
  c h := by rw [h]
  z h := by rw [h]
  v h := by rw [h]
  n h := by rw [h]
  computed h _ _ _ _ := by rw [h]; rfl
  setI h _ := by rw [h]; rfl
  setD h _ := by rw [h]; rfl

theorem congruence_flagsSameButIDB : Congruence FlagsSameButIDB where
  refl _ := rfl
  c h := by rw [h]
  z h := by rw [h]
  v h := by rw [h]
  n h := by rw [h]
  computed h _ _ _ _ := by rw [h]; rfl
  setI h _ := by rw [h]; rfl
  setD h _ := by rw [h]; rfl

/-- The byte that PHP pushes has bit 4 set, so that it is the same whatever `B` holds (R162). -/
theorem pack_or_break (f : Flags) (x : Bool) : ({ f with b := x } : Flags).pack ||| 0x30 = f.pack ||| 0x30 := by
  obtain ⟨c, z, i, d, b, v, n⟩ := f
  revert c z i d b v n x
  decide

/-- An instruction keeps the record of the latch, so that both results have their own state's (R188). -/
theorem exec_setFlags_of_ignores {E : Flags → Flags → Prop} {i : Instr} (h : Ignores E (exec i)) {s : State} {f : Flags}
    (hf : E s.flags f) : ∃ s' t', exec i s = .next s' ∧ exec i (s.setFlags f) = .next t' ∧
      E s'.flags t'.flags ∧ t' = s'.setFlags t'.flags := by
  obtain ⟨s', g, hs, ht, hg⟩ := h s f s.faultOpcode s.faultPc hf
  have hk := kept_of_exec hs
  exact ⟨s', _, hs, ht, hg, by rw [← hk.faultOpcode, ← hk.faultPc]; rfl⟩

/-- Settles O17: every instruction ignores the three flags, and PHP, which pushes `I` and `D`, ignores `B`. -/
theorem storageOnlyFlagsReachNothing : Obligations.StorageOnlyFlagsReachNothing := by
  unfold Obligations.StorageOnlyFlagsReachNothing
  constructor
  · intro i s t hi h
    have hf : FlagsSameButIDB s.flags t.flags := by rw [h]; rfl
    have ht : t = s.setFlags t.flags := by rw [h]; rfl
    obtain ⟨s', t', hs, ht', hf', hst⟩ :=
      exec_setFlags_of_ignores (exec_ignores congruence_flagsSameButIDB (absurd · hi)) hf
    exact ⟨s', t', hs, ht ▸ ht', by rw [hst, hf']; rfl⟩
  · intro i s b
    have hphp : i = .php → ∀ f g : Flags, FlagsSameButB f g → g.pack ||| 0x30 = f.pack ||| 0x30 := fun _ f g h => by
      rw [h]; exact pack_or_break f g.b
    obtain ⟨s', t', hs, ht, hf, hst⟩ :=
      exec_setFlags_of_ignores (exec_ignores congruence_flagsSameButB hphp) (s := s) (f := { s.flags with b := b }) rfl
    exact ⟨s', t', hs, ht, by rw [hst, hf]; rfl⟩

end Sys2Proof.Proofs.StorageOnly
end

section
/-! SUPPORT. The step by what its fetch finds (30_encoding.md R56 to R58): the fetch changes `PC` and the record of its
reads alone, and leaves `PC` past the last byte of the instruction that the decoder finds. -/

open Sys2Proof Sys2Proof.Machine Sys2Proof.Spec

namespace Sys2Proof.Proofs.StepByFetch

/-- A step that fetches an instruction executes it in the state that the fetch leaves. -/
theorem step_of_instr {s t : State} {i : Instr} (hh : s.halted = false) (hf : s.beginStep.fetchInstr = .instr i t) :
    step s = exec i t := by
  simp [step, hh, hf]

/-- A step at an absent opcode takes the exception. -/
theorem step_of_absent {s t : State} {op : Byte} (hh : s.halted = false)
    (hf : s.beginStep.fetchInstr = .absent op t) : step s = .next (t.takeInvalidOpcode op s.pc) := by
  simp [step, hh, hf]

/-- Only a core that is not halted answers a next state (R183). -/
theorem unhalted_of_step {s t : State} (h : step s = .next t) : s.halted = false := by
  cases hh : s.halted with
  | false => rfl
  | true => simp [step, hh] at h

/-- The state that a fetch leaves. -/
def fetchedState : Fetched → State
  | .instr _ t => t
  | .absent _ t => t

/-- A fetch changes `PC`, the count of reads and the list of accesses, and nothing else. -/
theorem fetchInstr_frame (s : State) : fetchedState s.fetchInstr =
    { s with
      pc := (fetchedState s.fetchInstr).pc
      reads := (fetchedState s.fetchInstr).reads
      accesses := (fetchedState s.fetchInstr).accesses } := by
  cases he : tableEntry (s.answer 0 s.pc) with
  | none => rw [State.fetchInstr_absent he]; rfl
  | some e =>
    cases e with
    | plain i => rw [State.fetchInstr_plain he]; rfl
    | byteOperand mk => rw [State.fetchInstr_byte he]; rfl
    | wordOperand mk => rw [State.fetchInstr_word he]; rfl

theorem fetchInstr_flags (s : State) : (fetchedState s.fetchInstr).flags = s.flags := by
  rw [fetchInstr_frame]

theorem fetchInstr_halted (s : State) : (fetchedState s.fetchInstr).halted = s.halted := by
  rw [fetchInstr_frame]

/-! ### The bytes that an entry of the Instruction Table takes -/

/-- The instructions of a cell are as long as the operand that the cell takes says (R50, R51). -/
def CellLength : Option TableEntry → Prop
  | none => True
  | some (.plain i) => i.length = 1
  | some (.byteOperand mk) => Instr.length ∘ mk = fun _ => 2
  | some (.wordOperand mk) => Instr.length ∘ mk = fun _ => 3

/-- Every cell of the matrix of R53, row by row. -/
theorem instructionMatrix_length (n : Nat) : (instructionMatrix n).Forall CellLength := by
  unfold instructionMatrix
  split <;> simp only [List.Forall, CellLength, true_and, and_true]
  all_goals and_intros <;> rfl

theorem tableEntry_length (op : Byte) : CellLength (tableEntry op) := by
  rw [tableEntry, List.getD_eq_getElem?_getD]
  cases hc : (instructionMatrix (op.toNat / 16))[op.toNat % 16]? with
  | none => trivial
  | some c => exact List.forall_iff_forall_mem.1 (instructionMatrix_length _) c (List.mem_of_getElem? hc)

/-! ### The step at bytes that decode, and at an absent opcode -/

/-- Before the first operand byte the opcode has been read. -/
theorem afterFetch_one (s : State) : afterFetch s 1 = (s.beginStep.busRead s.pc).2.setPc (s.pc + 1) := rfl

theorem afterFetch_two (s : State) : afterFetch s 2 = (afterFetch s 1).fetch8.2 := by
  have hp : s.pc + 1 + 1 = s.pc + 2 := BitVec.add_assoc s.pc 1 1
  have h : (afterFetch s 1).fetch8.2 = { afterFetch s 2 with pc := s.pc + 1 + 1 } := rfl
  rw [h, hp]
  rfl

theorem afterFetch_three (s : State) : afterFetch s 3 = (afterFetch s 2).fetch8.2 := by
  have hp : s.pc + 2 + 1 = s.pc + 3 := BitVec.add_assoc s.pc 2 1
  have h : (afterFetch s 2).fetch8.2 = { afterFetch s 3 with pc := s.pc + 2 + 1 } := rfl
  rw [h, hp]
  rfl

/-- The fetch of what the decoder finds: its bytes are read and `PC` is after the last. -/
theorem fetchInstr_of_decode {s : State} {i : Instr} {rest : List Byte} (h : decode (codeBytes s) = .ok i rest) :
    s.beginStep.fetchInstr = .instr i (afterFetch s i.length) := by
  have hl := tableEntry_length (s.answer 0 s.pc)
  simp only [codeBytes, decode] at h
  cases he : tableEntry (s.answer 0 s.pc) with
  | none => simp only [he] at h; cases h
  | some e =>
    rw [he] at h hl
    cases e with
    | plain j =>
      cases h
      rw [show i.length = 1 from hl, afterFetch_one]
      exact State.fetchInstr_plain (s := s.beginStep) he
    | byteOperand mk =>
      cases h
      rw [show (mk _).length = 2 from congrFun hl _, afterFetch_two, afterFetch_one]
      exact State.fetchInstr_byte (s := s.beginStep) he
    | wordOperand mk =>
      have hp : s.pc + 1 + 1 = s.pc + 2 := BitVec.add_assoc s.pc 1 1
      cases h
      rw [show (mk _).length = 3 from congrFun hl _, afterFetch_three, afterFetch_two, afterFetch_one, ← hp]
      exact State.fetchInstr_word (s := s.beginStep) he

/-- A step at bytes that decode is the instruction executed after its fetch (R56 to R58). -/
theorem step_of_decode {s : State} {i : Instr} {rest : List Byte} (hh : s.halted = false)
    (h : decode (codeBytes s) = .ok i rest) : step s = exec i (afterFetch s i.length) :=
  step_of_instr hh (fetchInstr_of_decode h)

/-- The listed opcodes are absent from the Instruction Table (R54). -/
theorem tableEntry_of_mem_absentOpcodes {op : Byte} (h : op ∈ absentOpcodes) : tableEntry op = none := by
  have hall : absentOpcodes.all (fun op => (tableEntry op).isNone) = true := by decide
  exact Option.isNone_iff_eq_none.1 (List.all_eq_true.1 hall op h)

/-- A step at an absent opcode reads it and takes the exception (R181). -/
theorem step_of_mem_absentOpcodes {s : State} (hh : s.halted = false) (h : s.answer 0 s.pc ∈ absentOpcodes) :
    step s = .next ((s.beginStep.busRead s.pc).2.takeInvalidOpcode (s.answer 0 s.pc) s.pc) :=
  step_of_absent hh (State.fetchInstr_absent (s := s.beginStep) (tableEntry_of_mem_absentOpcodes h))

/-- Settles O11: the fetch moves `PC` past the instruction, and what is no transfer leaves it there. -/
theorem pcMovesToNaturalSuccessor : Obligations.PcMovesToNaturalSuccessor := by
  unfold Obligations.PcMovesToNaturalSuccessor
  refine ⟨fun s t i rest hh hd hm ht => ?_, fun s t ht ha => ?_⟩
  · rw [step_of_decode hh hd] at ht
    obtain ⟨-, -, -, -, hpc⟩ := Frames.unlistedRegistersUnchanged i _ t ht
    have hfetch : (afterFetch s i.length).pc = s.pc + BitVec.ofNat 16 i.length := rfl
    rw [hpc hm, hfetch, BitVec.toNat_add, BitVec.toNat_ofNat, Nat.add_mod_mod]
  · rw [step_of_mem_absentOpcodes (unhalted_of_step ht) ha] at ht
    cases ht
    rfl

end Sys2Proof.Proofs.StepByFetch
end

section
/-! SUPPORT. Past accesses and the record of a latch that is not set do not reach a step (10_state.md R22, R23). -/

open Sys2Proof Sys2Proof.Machine Sys2Proof.Spec
open Sys2Proof.Proofs.StorageOnly Sys2Proof.Proofs.StepByFetch

namespace Sys2Proof.Proofs.StaleRecords

/-- The fetch with other flags and another record in the state it leaves. -/
def fetchedWithHidden (f : Flags) (op : Byte) (p : Address) : Fetched → Fetched
  | .instr i t => .instr i (withHidden t f op p)
  | .absent b t => .absent b (withHidden t f op p)

/-- A fetch reads neither the flags nor the record. -/
theorem fetchInstr_withHidden (s : State) (f : Flags) (op : Byte) (p : Address) :
    (withHidden s f op p).fetchInstr = fetchedWithHidden f op p s.fetchInstr := by
  cases he : tableEntry (s.answer 0 s.pc) with
  | none => rw [State.fetchInstr_absent he]; exact State.fetchInstr_absent (s := withHidden s f op p) he
  | some e =>
    cases e with
    | plain i => rw [State.fetchInstr_plain he]; exact State.fetchInstr_plain (s := withHidden s f op p) he
    | byteOperand mk => rw [State.fetchInstr_byte he]; exact State.fetchInstr_byte (s := withHidden s f op p) he
    | wordOperand mk => rw [State.fetchInstr_word he]; exact State.fetchInstr_word (s := withHidden s f op p) he

/-- The fetch from a state with stale records: a step has emptied the list of accesses, and the record stays. -/
theorem fetchInstr_of_stale (s : State) (l : List Access) (op : Byte) (p : Address) :
    ({ s with accesses := l, faultOpcode := op, faultPc := p } : State).beginStep.fetchInstr =
      fetchedWithHidden s.flags op p s.beginStep.fetchInstr :=
  fetchInstr_withHidden s.beginStep s.flags op p

/-- Settles O16: the fetch finds the same, and an instruction ignores the record; the exception overwrites it. -/
theorem staleRecordsReachNothing : Obligations.StaleRecordsReachNothing := by
  unfold Obligations.StaleRecordsReachNothing
  intro s l op p hh
  have hu := fetchInstr_of_stale s l op p
  have hflags := fetchInstr_flags s.beginStep
  have hhalted := fetchInstr_halted s.beginStep
  cases hf : s.beginStep.fetchInstr with
  | absent b t =>
    rw [hf] at hu hflags
    have ht : withHidden t s.flags op p = { t with faultOpcode := op, faultPc := p } := by
      rw [← State.beginStep_flags s, ← hflags]; rfl
    rw [fetchedWithHidden, ht] at hu
    exact ⟨_, _, step_of_absent hh hf, step_of_absent hh hu, rfl, fun _ => ⟨rfl, rfl⟩⟩
  | instr i t =>
    rw [hf] at hu hflags hhalted
    have hphp : i = .php → ∀ f g : Flags, f = g → g.pack ||| 0x30 = f.pack ||| 0x30 := fun _ f g h => by rw [h]
    obtain ⟨t', g, hs, hu', hg⟩ := exec_ignores congruence_eq hphp t s.flags op p hflags
    subst hg
    have hstep := step_of_instr (s := { s with accesses := l, faultOpcode := op, faultPc := p }) hh hu
    have hnot : t'.halted = false := (kept_of_exec hs).halted.trans (hhalted.trans hh)
    exact ⟨t', _, (step_of_instr hh hf).trans hs, hstep.trans hu', rfl, fun hb => by simp [hnot] at hb⟩

end Sys2Proof.Proofs.StaleRecords
end

section
/-! SUPPORT. The stack in page 0x01 (10_state.md R14 to R16) and the status byte (R17 to R19). -/

open Sys2Proof Sys2Proof.Machine Sys2Proof.Spec

namespace Sys2Proof.Proofs.StackAndStatus

/-! ### The stack -/

theorem toNat_stackAt (sp : Byte) : (stackAt sp).toNat = 256 + sp.toNat := by
  have hsp := sp.isLt
  have hbase : (0x0100 : Address).toNat = 256 := rfl
  rw [stackAt, BitVec.toNat_add, BitVec.toNat_setWidth, hbase]
  omega

/-- The model's stack address is the sum of R14. -/
theorem stackAddr_eq_stackAt (sp : Byte) : stackAddr sp = stackAt sp := by
  apply BitVec.eq_of_toNat_eq
  rw [stackAddr, toNat_word, toNat_stackAt]
  rfl

theorem push_eq (s : State) (v : Byte) : s.push v = { written s (stackAt s.sp) v with sp := s.sp - 1 } := by
  rw [← stackAddr_eq_stackAt]
  rfl

theorem pull_eq (s : State) :
    s.pull = (s.answer 0 (stackAt (s.sp + 1)), { readAt s (stackAt (s.sp + 1)) with sp := s.sp + 1 }) := by
  rw [← stackAddr_eq_stackAt]
  rfl

/-- Settles O44: the model's stack address is that of R14, and the wraps are those of an 8-bit `SP`. -/
theorem pushAndPullInPageOne : Obligations.PushAndPullInPageOne := by
  unfold Obligations.PushAndPullInPageOne
  refine ⟨toNat_stackAt, fun s v => ⟨push_eq s v, ?_⟩, fun s => ⟨pull_eq s, ?_⟩⟩
  · rw [State.push_sp, BitVec.toNat_sub, Nat.add_comm]
    rfl
  · rw [State.pull_sp, BitVec.toNat_add]
    rfl

/-- A push changes no byte but the one at the stack address. -/
theorem byteAt_push_of_ne (s : State) (v : Byte) {q : Address} (h : q ≠ stackAt s.sp) :
    (s.push v).byteAt q = s.byteAt q :=
  State.byteAt_busWrite_ne s v (by rwa [stackAddr_eq_stackAt])

theorem eq_pha_of_mnemonic {i : Instr} (h : i.mnemonic = .pha) : i = .pha :=
  match i, h with
  | .pha, _ => rfl

theorem eq_php_of_mnemonic {i : Instr} (h : i.mnemonic = .php) : i = .php :=
  match i, h with
  | .php, _ => rfl

theorem eq_jsr_of_mnemonic {i : Instr} (h : i.mnemonic = .jsr) : ∃ a, i = .jsr a :=
  match i, h with
  | .jsr a, _ => ⟨a, rfl⟩

/-- Settles O56: each push leaves every byte but its own, and JSR pushes at `SP`, then at `SP - 1`. -/
theorem pushingFormsLeaveOtherBytes : Obligations.PushingFormsLeaveOtherBytes := by
  unfold Obligations.PushingFormsLeaveOtherBytes
  refine fun i s t h => ⟨fun hm q hq => ?_, fun hm q hq hq' => ?_⟩
  · have hi : i = .pha ∨ i = .php :=
      (List.mem_pair.1 hm).imp eq_pha_of_mnemonic eq_php_of_mnemonic
    rcases hi with rfl | rfl <;> cases h <;> exact byteAt_push_of_ne s _ hq
  · obtain ⟨a, rfl⟩ := eq_jsr_of_mnemonic hm
    cases h
    exact (byteAt_push_of_ne (s.push _) _ hq').trans (byteAt_push_of_ne s _ hq)

/-! ### The status byte -/

/-- The sum of R18 fits a byte, so that `pack` drops nothing. -/
theorem toNat_pack (f : Flags) : f.pack.toNat = f.n.toNat * 128 + f.v.toNat * 64 + 32 + f.b.toNat * 16 +
    f.d.toNat * 8 + f.i.toNat * 4 + f.z.toNat * 2 + f.c.toNat := by
  have := f.n.toNat_le; have := f.v.toNat_le; have := f.b.toNat_le; have := f.d.toNat_le
  have := f.i.toNat_le; have := f.z.toNat_le; have := f.c.toNat_le
  rw [Flags.pack, BitVec.toNat_ofNat]
  omega

/-- The flags are the bits that `pack` gives them (R18, R19). -/
theorem unpack_pack (f : Flags) : Flags.unpack f.pack = f := by
  obtain ⟨c, z, i, d, b, v, n⟩ := f
  revert c z i d b v n
  decide

/-- Bit 5 is forced to 1, every other bit comes back (R19). -/
theorem pack_unpack : ∀ b : Byte, (Flags.unpack b).pack = b ||| 0x20 := by decide

/-- Settles O50, from the value of `pack` and its two round trips; the ports are them on the state's flags. -/
theorem statusBytePacksLiveFlags : Obligations.StatusBytePacksLiveFlags := by
  unfold Obligations.StatusBytePacksLiveFlags
  exact ⟨toNat_pack, pack_unpack, unpack_pack, fun _ _ => rfl, fun _ b => pack_unpack b⟩

end Sys2Proof.Proofs.StackAndStatus
end

section
/-! SUPPORT. The storage behind the memory port: the canonical form as data (log entry 1), and one read and one write of
the port (20_memory.md R30, R31, R38). -/

open Sys2Proof Sys2Proof.Machine Sys2Proof.Spec

namespace Sys2Proof.Proofs.Storage

/-! ### The canonical form -/

theorem wfFrom_cons {lo k : Nat} {w : Byte} {rest : Memory} : Memory.wfFrom lo ((k, w) :: rest) = true ↔
    lo ≤ k ∧ k < Config.memorySize ∧ w ≠ Config.unlistedByte ∧ Memory.wfFrom (k + 1) rest = true := by
  simp [Memory.wfFrom, and_assoc]

/-- The first entry of a canonical list is what its address reads as. -/
theorem get_head (k : Nat) (w : Byte) (rest : Memory) : Memory.get ((k, w) :: rest) k = w := if_pos rfl

/-- Behind the first address, a list reads as its rest does. -/
theorem get_tail {k a : Nat} (w : Byte) (rest : Memory) (h : k < a) :
    Memory.get ((k, w) :: rest) a = Memory.get rest a := if_neg h.ne

/-- What a canonical list from `lo` on reads as a listed byte lies at `lo` or behind it. -/
theorem le_of_get_ne_unlisted {m : Memory} {lo a : Nat} (h : m.wfFrom lo = true) (ha : m.get a ≠ Config.unlistedByte) :
    lo ≤ a :=
  not_lt.1 fun hlt => ha (Memory.get_of_lt_wfFrom h hlt)

/-- The address that a canonical list begins with is the first that does not read as the unlisted byte, so lists that
read the same begin with the same entry. -/
theorem eq_of_get {m n : Memory} {lo : Nat} (hm : m.wfFrom lo = true) (hn : n.wfFrom lo = true)
    (h : ∀ a < Config.memorySize, m.get a = n.get a) : m = n := by
  induction m generalizing n lo with
  | nil =>
    cases n with
    | nil => rfl
    | cons e rest =>
      obtain ⟨k, w⟩ := e
      obtain ⟨-, hk, hw, -⟩ := wfFrom_cons.1 hn
      exact absurd ((get_head k w rest).symm.trans (h k hk).symm) hw
  | cons e rest ih =>
    obtain ⟨k, w⟩ := e
    obtain ⟨-, hk, hw, hrest⟩ := wfFrom_cons.1 hm
    cases n with
    | nil => exact absurd ((get_head k w rest).symm.trans (h k hk)) hw
    | cons e' rest' =>
      obtain ⟨k', w'⟩ := e'
      obtain ⟨-, hk', hw', hrest'⟩ := wfFrom_cons.1 hn
      have hle : k' ≤ k :=
        le_of_get_ne_unlisted (wfFrom_cons.2 ⟨le_rfl, hk', hw', hrest'⟩) (by rwa [← h k hk, get_head])
      have hge : k ≤ k' :=
        le_of_get_ne_unlisted (wfFrom_cons.2 ⟨le_rfl, hk, hw, hrest⟩) (by rwa [h k' hk', get_head])
      obtain rfl := le_antisymm hge hle
      have hww : w = w' := by simpa only [get_head] using h k hk
      have htail : ∀ a < Config.memorySize, Memory.get rest a = Memory.get rest' a := fun a ha => by
        rcases lt_or_ge k a with hka | hka
        · simpa only [get_tail _ _ hka] using h a ha
        · rw [Memory.get_of_lt_wfFrom hrest (Nat.lt_succ_of_le hka),
            Memory.get_of_lt_wfFrom hrest' (Nat.lt_succ_of_le hka)]
      rw [hww, ih hrest hrest' htail]

/-- Settles O20: canonical lists are equal entry by entry, and every address of the space is an `Address`. -/
theorem canonicalMemoriesAreEqual : Obligations.CanonicalMemoriesAreEqual := by
  unfold Obligations.CanonicalMemoriesAreEqual
  intro m n hm hn h
  exact eq_of_get hm hn fun a ha => h (BitVec.ofNatLT a ha)

/-! ### The port -/

/-- A read of an address without storage gives the next free value (R38, log entry 3). -/
theorem answer_of_external {s : State} {p : Address} (h : s.isExternal p = true) (k : Nat) :
    s.answer k p = Config.externalByte (s.reads + k) := if_pos h

/-- A write to an address without storage stores nothing (log entry 2). -/
theorem mem_busWrite_of_external {s : State} {p : Address} (v : Byte) (h : s.isExternal p = true) :
    (s.busWrite p v).mem = s.mem := if_pos h

/-- Settles O19, from the laws of the port. -/
theorem portReadsAndWritesOneByte : Obligations.PortReadsAndWritesOneByte := by
  unfold Obligations.PortReadsAndWritesOneByte
  exact ⟨fun _ _ => rfl, fun _ k _ h => State.answer_of_stored h k, fun _ k _ h => answer_of_external h k,
    fun _ _ _ => rfl, fun _ _ v hm h => State.byteAt_busWrite_self hm v h,
    fun _ _ v h => mem_busWrite_of_external v h, fun s _ _ v h => State.byteAt_busWrite_ne s v h⟩

end Sys2Proof.Proofs.Storage
end

section
/-! SUPPORT. The accesses of every instruction against the table of R44 (20_memory.md R37, R44). `Makes` says of a piece
of a meaning which accesses it makes, in order, and that storage changes at the addresses written alone; it composes, so
each meaning is settled by its pieces, and both the table and the memory frames follow. -/

open Sys2Proof Sys2Proof.Machine Sys2Proof.Spec
open Sys2Proof.Proofs.StackAndStatus

namespace Sys2Proof.Proofs.AccessTable

/-- From `s` to `t` exactly the accesses `es` are made, in order, and storage changes only where they write. -/
structure Makes (s t : State) (es : List (AccessKind × Address)) : Prop where
  log : ∃ l : List Access, t.accesses = s.accesses ++ l ∧ l.map (fun e => (e.kind, e.addr)) = es ∧
    t.reads = s.reads + (l.filter (·.kind = .read)).length
  mem : (∀ q, (AccessKind.write, q) ∉ es) → t.mem = s.mem
  byteAt : ∀ q, (AccessKind.write, q) ∉ es → t.byteAt q = s.byteAt q

theorem Makes.of_same {s t : State} (hm : t.mem = s.mem) (ha : t.accesses = s.accesses) (hr : t.reads = s.reads) :
    Makes s t [] :=
  ⟨⟨[], by rw [ha, List.append_nil], rfl, hr⟩, fun _ => hm, fun q _ => congrArg (Memory.get · q.toNat) hm⟩

theorem Makes.trans {s t u : State} {es fs : List (AccessKind × Address)} (h : Makes s t es) (k : Makes t u fs) :
    Makes s u (es ++ fs) := by
  obtain ⟨l, hl, hes, hreads⟩ := h.log
  obtain ⟨m, hm, kfs, kreads⟩ := k.log
  refine ⟨⟨l ++ m, by rw [hm, hl, List.append_assoc], by rw [List.map_append, hes, kfs], ?_⟩, fun hw => ?_,
    fun q hw => ?_⟩
  · rw [kreads, hreads, List.filter_append, List.length_append, Nat.add_assoc]
  · simp only [List.mem_append, not_or] at hw
    exact (k.mem fun q => (hw q).2).trans (h.mem fun q => (hw q).1)
  · simp only [List.mem_append, not_or] at hw
    exact (k.byteAt q hw.2).trans (h.byteAt q hw.1)

/-- An update after the last access. -/
theorem Makes.andThen {s t u : State} {es : List (AccessKind × Address)} (h : Makes s t es) (k : Makes t u []) :
    Makes s u es :=
  List.append_nil es ▸ h.trans k

/-! ### The named operations -/

theorem makes_setReg (s : State) (r : Reg) (v : Byte) : Makes s (s.setReg r v) [] := by
  cases r <;> exact .of_same rfl rfl rfl

theorem makes_setPc (s : State) (p : Address) : Makes s (s.setPc p) [] := .of_same rfl rfl rfl

theorem makes_setFlags (s : State) (f : Flags) : Makes s (s.setFlags f) [] := .of_same rfl rfl rfl

theorem makes_setReg_setFlags (s : State) (r : Reg) (v : Byte) (f : Flags) :
    Makes s ((s.setReg r v).setFlags f) [] :=
  (makes_setReg s r v).andThen (makes_setFlags _ f)

theorem makes_busRead (s : State) (p : Address) : Makes s (s.busRead p).2 [(.read, p)] :=
  ⟨⟨_, rfl, rfl, rfl⟩, fun _ => rfl, fun _ _ => rfl⟩

theorem makes_busWrite (s : State) (p : Address) (v : Byte) : Makes s (s.busWrite p v) [(.write, p)] where
  log := ⟨_, rfl, rfl, rfl⟩
  mem h := absurd (List.mem_singleton_self _) (h p)
  byteAt _ h := State.byteAt_busWrite_ne s v fun hq => h (List.mem_singleton.2 (congrArg _ hq))

theorem makes_read16 (s : State) (lo hi : Address) : Makes s (s.read16 lo hi).2 [(.read, lo), (.read, hi)] :=
  (makes_busRead s lo).trans (makes_busRead _ hi)

/-- The pointer reads of a mode are those of the table (R73 to R78, R80, R81). -/
theorem makes_resolve (s : State) (o : MemOperand) : Makes s (s.resolve o).2 (pointerReads s (.memory o)) := by
  cases o with
  | izx b => exact makes_read16 s (zext16 (b + s.x)) (zext16 (b + s.x + 1))
  | izy b => exact makes_read16 s (zext16 b) (zext16 (b + 1))
  | zp b | zpx b | zpy b | abs a | abx a | aby a => exact .of_same rfl rfl rfl

/-- What the table gives the data read of a source: of an immediate, none that the fetch has not made (log entry 8). -/
def sourceAccesses (s : State) : Source → List (AccessKind × Address)
  | .immediate _ => []
  | .memory o => pointerReads s (.memory o) ++ [(.read, (s.resolve o).1)]

theorem makes_loadOperand (s : State) (src : Source) : Makes s (s.loadOperand src).2 (sourceAccesses s src) := by
  cases src with
  | immediate v => exact .of_same rfl rfl rfl
  | memory o => exact (makes_resolve s o).trans (makes_busRead _ _)

theorem makes_push (s : State) (v : Byte) : Makes s (s.push v) [(.write, stackAt s.sp)] :=
  stackAddr_eq_stackAt s.sp ▸ (makes_busWrite s (stackAddr s.sp) v).andThen (makes_setReg _ .sp _)

theorem makes_pull (s : State) : Makes s s.pull.2 [(.read, stackAt (s.sp + 1))] :=
  stackAddr_eq_stackAt (s.sp + 1) ▸ (makes_setReg s .sp _).trans (makes_busRead _ _)

/-! ### The shared meanings -/

/-- The meaning answers a next state after the accesses `es`. -/
def Performs (m : State → Result) (s : State) (es : List (AccessKind × Address)) : Prop :=
  ∃ t, m s = .next t ∧ Makes s t es

section
variable (s : State)

theorem load_performs (r : Reg) (src : Source) : Performs (load r src) s (sourceAccesses s src) :=
  ⟨_, rfl, (makes_loadOperand s src).andThen (makes_setReg_setFlags _ r _ _)⟩

theorem addCarry_performs (src : Source) : Performs (addCarry src) s (sourceAccesses s src) :=
  ⟨_, rfl, (makes_loadOperand s src).andThen (makes_setReg_setFlags _ .a _ _)⟩

theorem subCarry_performs (src : Source) : Performs (subCarry src) s (sourceAccesses s src) :=
  ⟨_, rfl, (makes_loadOperand s src).andThen (makes_setReg_setFlags _ .a _ _)⟩

theorem logical_performs (op : Byte → Byte → Byte) (src : Source) :
    Performs (logical op src) s (sourceAccesses s src) :=
  ⟨_, rfl, (makes_loadOperand s src).andThen (makes_setReg_setFlags _ .a _ _)⟩

theorem compare_performs (r : Reg) (src : Source) : Performs (compare r src) s (sourceAccesses s src) :=
  ⟨_, rfl, (makes_loadOperand s src).andThen (makes_setFlags _ _)⟩

theorem bitTest_performs (o : MemOperand) : Performs (bitTest o) s (sourceAccesses s (.memory o)) :=
  ⟨_, rfl, (makes_loadOperand s (.memory o)).andThen (makes_setFlags _ _)⟩

/-- A store does not read the effective address (R93 to R95). -/
theorem store_performs (r : Reg) (o : MemOperand) :
    Performs (store r o) s (pointerReads s (.memory o) ++ [(.write, (s.resolve o).1)]) :=
  ⟨_, rfl, (makes_resolve s o).trans (makes_busWrite _ _ _)⟩

/-- A read-modify-write is one read and one write of the same address (R9 RMW). -/
theorem makes_rmw (o : MemOperand) (v : Byte) (f : Flags) :
    Makes s ((((s.resolve o).2.busRead (s.resolve o).1).2.busWrite (s.resolve o).1 v).setFlags f)
      (pointerReads s (.memory o) ++ [(.read, (s.resolve o).1), (.write, (s.resolve o).1)]) :=
  (makes_resolve s o).trans (((makes_busRead _ _).trans (makes_busWrite _ _ v)).andThen (makes_setFlags _ f))

theorem modify_performs (op : Byte → Byte) (o : MemOperand) : Performs (modify op o) s
    (pointerReads s (.memory o) ++ [(.read, (s.resolve o).1), (.write, (s.resolve o).1)]) :=
  ⟨_, rfl, makes_rmw s o _ _⟩

theorem shift_memory_performs (op : Bool → Byte → Shifted) (o : MemOperand) : Performs (shift op (.memory o)) s
    (pointerReads s (.memory o) ++ [(.read, (s.resolve o).1), (.write, (s.resolve o).1)]) :=
  ⟨_, rfl, makes_rmw s o _ _⟩

theorem shift_accumulator_performs (op : Bool → Byte → Shifted) : Performs (shift op .accumulator) s [] :=
  ⟨_, rfl, makes_setReg_setFlags s .a _ _⟩

theorem transfer_performs (src dst : Reg) : Performs (transfer src dst) s [] :=
  ⟨_, rfl, makes_setReg_setFlags s dst _ _⟩

theorem modifyReg_performs (op : Byte → Byte) (r : Reg) : Performs (modifyReg op r) s [] :=
  ⟨_, rfl, makes_setReg_setFlags s r _ _⟩

theorem branch_performs (c : Bool) (d : Byte) : Performs (branch c d) s [] := by
  cases c with
  | true => exact ⟨_, rfl, makes_setPc s _⟩
  | false => exact ⟨_, rfl, .of_same rfl rfl rfl⟩

theorem execJmpInd_performs (p : Address) : Performs (execJmpInd p) s (pointerReads s (.indirect p)) :=
  ⟨_, rfl, (makes_read16 s p (samePageNext p)).andThen (makes_setPc _ _)⟩

theorem execJsr_performs (a : Address) :
    Performs (execJsr a) s [(.write, stackAt s.sp), (.write, stackAt (s.sp - 1))] :=
  ⟨_, rfl, ((makes_push s _).trans (makes_push _ _)).andThen (makes_setPc _ a)⟩

theorem execRts_performs : Performs execRts s [(.read, stackAt (s.sp + 1)), (.read, stackAt (s.sp + 2))] := by
  have hsp : s.sp + 1 + 1 = s.sp + 2 := BitVec.add_assoc s.sp 1 1
  rw [← hsp]
  exact ⟨_, rfl, ((makes_pull s).trans (makes_pull _)).andThen (makes_setPc _ _)⟩

theorem execPla_performs : Performs execPla s [(.read, stackAt (s.sp + 1))] :=
  ⟨_, rfl, (makes_pull s).andThen (makes_setReg_setFlags _ .a _ _)⟩

theorem execPlp_performs : Performs execPlp s [(.read, stackAt (s.sp + 1))] :=
  ⟨_, rfl, (makes_pull s).andThen (makes_setFlags _ _)⟩

end

/-! ### Every instruction -/

/-- The table of R44, row by row. -/
theorem exec_performs (i : Instr) (s : State) : Performs (exec i) s (pointerReads s i.operand ++ dataAccesses s i) := by
  cases i
  case ldaImm | ldaZp | ldaZpx | ldaAbs | ldaAbx | ldaAby | ldaIzx | ldaIzy | ldxImm | ldxZp | ldxZpy | ldxAbs |
      ldxAby | ldyImm | ldyZp | ldyZpx | ldyAbs | ldyAbx =>
    exact load_performs s _ _
  case staZp | staZpx | staAbs | staAbx | staAby | staIzx | staIzy | stxZp | stxZpy | stxAbs | styZp | styZpx |
      styAbs =>
    exact store_performs s _ _
  case tax | tay | txa | tya | tsx => exact transfer_performs s _ _
  case txs => exact ⟨_, rfl, makes_setReg s .sp _⟩
  case adcImm | adcZp | adcZpx | adcAbs | adcAbx | adcAby | adcIzx | adcIzy => exact addCarry_performs s _
  case sbcImm | sbcZp | sbcZpx | sbcAbs | sbcAbx | sbcAby | sbcIzx | sbcIzy => exact subCarry_performs s _
  case cmpImm | cmpZp | cmpZpx | cmpAbs | cmpAbx | cmpAby | cmpIzx | cmpIzy | cpxImm | cpxZp | cpxAbs | cpyImm |
      cpyZp | cpyAbs =>
    exact compare_performs s _ _
  case andImm | andZp | andZpx | andAbs | andAbx | andAby | andIzx | andIzy | oraImm | oraZp | oraZpx | oraAbs |
      oraAbx | oraAby | oraIzx | oraIzy | eorImm | eorZp | eorZpx | eorAbs | eorAbx | eorAby | eorIzx | eorIzy =>
    exact logical_performs s _ _
  case aslZp | aslZpx | aslAbs | aslAbx => exact shift_memory_performs s (fun _ v => asl8 v) _
  case lsrZp | lsrZpx | lsrAbs | lsrAbx => exact shift_memory_performs s (fun _ v => lsr8 v) _
  case rolZp | rolZpx | rolAbs | rolAbx => exact shift_memory_performs s (fun cin v => rol8 v cin) _
  case rorZp | rorZpx | rorAbs | rorAbx => exact shift_memory_performs s (fun cin v => ror8 v cin) _
  case aslAcc => exact shift_accumulator_performs s fun _ v => asl8 v
  case lsrAcc => exact shift_accumulator_performs s fun _ v => lsr8 v
  case rolAcc => exact shift_accumulator_performs s fun cin v => rol8 v cin
  case rorAcc => exact shift_accumulator_performs s fun cin v => ror8 v cin
  case incZp | incZpx | incAbs | incAbx => exact modify_performs s (· + 1) _
  case decZp | decZpx | decAbs | decAbx => exact modify_performs s (· - 1) _
  case inx | iny => exact modifyReg_performs s (· + 1) _
  case dex | dey => exact modifyReg_performs s (· - 1) _
  case bitZp | bitAbs => exact bitTest_performs s _
  case bcc | bcs | beq | bne | bmi | bpl | bvc | bvs => exact branch_performs s _ _
  case jmpAbs => exact ⟨_, rfl, makes_setPc s _⟩
  case jmpInd => exact execJmpInd_performs s _
  case jsr => exact execJsr_performs s _
  case rts => exact execRts_performs s
  case pha | php => exact ⟨_, rfl, makes_push s _⟩
  case pla => exact execPla_performs s
  case plp => exact execPlp_performs s
  case nop => exact ⟨_, rfl, .of_same rfl rfl rfl⟩
  case clc | sec | cli | sei | clv | cld | sed => exact ⟨_, rfl, makes_setFlags s _⟩

theorem makes_of_exec {i : Instr} {s t : State} (h : exec i s = .next t) :
    Makes s t (pointerReads s i.operand ++ dataAccesses s i) := by
  obtain ⟨u, hu, hmakes⟩ := exec_performs i s
  cases h.symm.trans hu
  exact hmakes

/-- Settles O21: what every instruction makes is its row of the table. -/
theorem accessesFollowTable : Obligations.AccessesFollowTable := by
  unfold Obligations.AccessesFollowTable
  exact fun i s t h => (makes_of_exec h).log

/-! ### The memory frames -/

/-- Pointers are only read. -/
theorem write_notMem_pointerReads (s : State) (o : Operand) (q : Address) :
    (AccessKind.write, q) ∉ pointerReads s o := by
  unfold pointerReads
  split <;> simp

/-- What the table gives a write: the pushes, and at the effective address the stores and the memory forms of the
read-modify-writes. -/
theorem write_mem_dataAccesses {i : Instr} {s : State} {q : Address} (h : (AccessKind.write, q) ∈ dataAccesses s i) :
    i.mnemonic ∈ [.pha, .php, .jsr] ∨
      (i.mnemonic ∈ [.sta, .stx, .sty] ∨ i.mnemonic ∈ rmw) ∧ ∃ o, i.operand = .memory o ∧ q = (s.resolve o).1 := by
  unfold dataAccesses at h
  split at h <;> simp_all [rmw]

theorem mode_ne_acc (o : MemOperand) : o.mode ≠ .acc := by cases o <;> exact nofun

/-- Settles O54: the table gives these forms no write. -/
theorem nonStoringFormsLeaveMemory : Obligations.NonStoringFormsLeaveMemory := by
  unfold Obligations.NonStoringFormsLeaveMemory
  intro i s t h hm hacc
  have hw : ∀ q, (AccessKind.write, q) ∉ pointerReads s i.operand ++ dataAccesses s i := by
    intro q hq
    have hdata := (List.mem_append.1 hq).resolve_left (write_notMem_pointerReads s i.operand q)
    rcases write_mem_dataAccesses hdata with hpush | ⟨hstore | hrmw, o, ho, -⟩
    · exact hm (List.mem_append_right [Mnemonic.sta, .stx, .sty] hpush)
    · exact hm (List.mem_append_left [Mnemonic.pha, .php, .jsr] hstore)
    · have hmode := hacc hrmw
      rw [Instr.mode, ho] at hmode
      exact mode_ne_acc o hmode
  exact ⟨fun q => (makes_of_exec h).byteAt q (hw q), (makes_of_exec h).mem hw⟩

/-- Settles O55: the one write that the table gives these forms is at the effective address. -/
theorem storingFormsLeaveOtherBytes : Obligations.StoringFormsLeaveOtherBytes := by
  unfold Obligations.StoringFormsLeaveOtherBytes
  intro i s t o h hm ho q hq
  refine (makes_of_exec h).byteAt q fun hw => ?_
  have hdata := (List.mem_append.1 hw).resolve_left (write_notMem_pointerReads s i.operand q)
  rcases write_mem_dataAccesses hdata with hpush | ⟨-, o', ho', rfl⟩
  · have hdisjoint : ∀ m ∈ [Mnemonic.pha, .php, .jsr], m ∉ [.sta, .stx, .sty] ∧ m ∉ rmw := by decide
    exact hm.elim (hdisjoint _ hpush).1 (hdisjoint _ hpush).2
  · cases ho.symm.trans ho'
    exact hq rfl

end Sys2Proof.Proofs.AccessTable
end

section
/-! SUPPORT. A write is seen by the very next fetch (20_memory.md R41; 70_reset_and_hazards.md R207): the instruction
leaves its byte in storage, and the first accesses of the next step read the instruction bytes from there. -/

open Sys2Proof Sys2Proof.Machine Sys2Proof.Spec
open Sys2Proof.Proofs.StepByFetch

namespace Sys2Proof.Proofs.NextFetch

/-! ### What an instruction wrote is what memory answers -/

/-- A byte that an instruction wrote is what memory then answers at its address (R39, R41). -/
theorem answer_of_exec_write {i : Instr} {s t : State} {l : List Access} {e : Access} (h : exec i s = .next t)
    (hl : t.accesses = s.accesses ++ l) (he : e ∈ l) (hk : e.kind = .write) (hm : s.mem.wf = true)
    (hx : s.isExternal e.addr = false) (k : Nat) : t.answer k e.addr = e.value := by
  obtain ⟨l', hl', hland⟩ := exec_writes_land h
  cases List.append_cancel_left (hl.symm.trans hl')
  rw [State.answer_of_stored (by rwa [State.isExternal_congr (kept_of_exec h).external])]
  exact hland e he hk hm hx

/-! ### The first accesses of a step -/

/-- The first access of the step's fetch is the read of the opcode. -/
theorem fetchInstr_accesses_zero (s : State) : (fetchedState s.beginStep.fetchInstr).accesses[0]? =
    some { kind := .read, addr := s.pc, value := s.answer 0 s.pc } := by
  cases he : tableEntry (s.answer 0 s.pc) with
  | none => rw [State.fetchInstr_absent (s := s.beginStep) he]; rfl
  | some e =>
    cases e with
    | plain i => rw [State.fetchInstr_plain (s := s.beginStep) he]; rfl
    | byteOperand mk => rw [State.fetchInstr_byte (s := s.beginStep) he]; rfl
    | wordOperand mk => rw [State.fetchInstr_word (s := s.beginStep) he]; rfl

/-- An instruction keeps the accesses made before it, in their places. -/
theorem accesses_getElem?_of_exec {i : Instr} {s t : State} {n : Nat} {e : Access} (h : exec i s = .next t)
    (he : s.accesses[n]? = some e) : t.accesses[n]? = some e := by
  obtain ⟨l, hl, -⟩ := exec_writes_land h
  obtain ⟨hn, -⟩ := List.getElem?_eq_some_iff.1 he
  rw [hl, List.getElem?_append_left hn, he]

/-- The first access of a step is the read of its opcode, at an absent opcode too (R56, R181). -/
theorem head_accesses_of_step {s t : State} (h : step s = .next t) :
    t.accesses.head? = some { kind := .read, addr := s.pc, value := s.answer 0 s.pc } := by
  have hh := unhalted_of_step h
  have hfetch := fetchInstr_accesses_zero s
  rw [List.head?_eq_getElem?]
  cases hf : s.beginStep.fetchInstr with
  | instr i u =>
    rw [step_of_instr hh hf] at h
    rw [hf] at hfetch
    exact accesses_getElem?_of_exec h hfetch
  | absent op u =>
    rw [step_of_absent hh hf] at h
    rw [hf] at hfetch
    cases h
    exact hfetch

/-- Access `n` of a fetch is the read of byte `n` of the instruction (R57). -/
theorem afterFetch_accesses_getElem? (s : State) {n k : Nat} (hn : n < k) (hk : k ≤ 3) :
    (afterFetch s k).accesses[n]? = some
      { kind := .read, addr := s.pc + BitVec.ofNat 16 n, value := s.answer n (s.pc + BitVec.ofNat 16 n) } := by
  rw [afterFetch, List.getElem?_take_of_lt hn]
  match n, hn with
  | 0, _ => rw [BitVec.ofNat_eq_ofNat, BitVec.add_zero]; rfl
  | 1, _ | 2, _ => rfl
  | n + 3, _ => omega

theorem length_le_three (i : Instr) : i.length ≤ 3 := by
  unfold Instr.length
  cases i.mode <;> decide

/-- Access `n` of a step at bytes that decode is the read of byte `n` of the instruction, counted from its opcode. -/
theorem accesses_getElem?_of_step {s t : State} {i : Instr} {rest : List Byte} {n : Nat}
    (hd : decode (codeBytes s) = .ok i rest) (hn : n < i.length) (h : step s = .next t) :
    t.accesses[n]? = some
      { kind := .read, addr := s.pc + BitVec.ofNat 16 n, value := s.answer n (s.pc + BitVec.ofNat 16 n) } := by
  rw [step_of_decode (unhalted_of_step h) hd] at h
  exact accesses_getElem?_of_exec h (afterFetch_accesses_getElem? s hn (length_le_three i))

/-- An instruction that writes at the address `PC` then holds has written the opcode of the next step. -/
theorem head_accesses_of_exec_write {i : Instr} {s t u : State} {l : List Access} {e : Access}
    (h : exec i s = .next t) (hl : t.accesses = s.accesses ++ l) (he : e ∈ l) (hk : e.kind = .write)
    (ha : e.addr = t.pc) (hm : s.mem.wf = true) (hx : s.isExternal t.pc = false) (hu : step t = .next u) :
    u.accesses.head? = some { kind := .read, addr := t.pc, value := e.value } := by
  rw [head_accesses_of_step hu, ← ha, answer_of_exec_write h hl he hk hm (by rwa [ha])]

/-! ### The stores -/

theorem exec_of_sta {i : Instr} {o : MemOperand} (h : i.mnemonic = .sta) (ho : i.operand = .memory o) (s : State) :
    exec i s = store .a o s :=
  match i, h, ho with
  | .staZp _, _, rfl | .staZpx _, _, rfl | .staAbs _, _, rfl | .staAbx _, _, rfl | .staAby _, _, rfl
  | .staIzx _, _, rfl | .staIzy _, _, rfl => rfl

theorem exec_of_stx {i : Instr} {o : MemOperand} (h : i.mnemonic = .stx) (ho : i.operand = .memory o) (s : State) :
    exec i s = store .x o s :=
  match i, h, ho with
  | .stxZp _, _, rfl | .stxZpy _, _, rfl | .stxAbs _, _, rfl => rfl

theorem exec_of_sty {i : Instr} {o : MemOperand} (h : i.mnemonic = .sty) (ho : i.operand = .memory o) (s : State) :
    exec i s = store .y o s :=
  match i, h, ho with
  | .styZp _, _, rfl | .styZpx _, _, rfl | .styAbs _, _, rfl => rfl

/-- The three store mnemonics are the shared store, each of its register (R93 to R95). -/
theorem exec_of_store {i : Instr} {r : Reg} {o : MemOperand}
    (hm : (i.mnemonic, r) ∈ [(Mnemonic.sta, Reg.a), (.stx, .x), (.sty, .y)]) (ho : i.operand = .memory o)
    (s : State) : exec i s = store r o s := by
  simp only [List.mem_cons, Prod.mk.injEq, List.not_mem_nil, or_false] at hm
  rcases hm with ⟨hm, rfl⟩ | ⟨hm, rfl⟩ | ⟨hm, rfl⟩
  · exact exec_of_sta hm ho s
  · exact exec_of_stx hm ho s
  · exact exec_of_sty hm ho s

/-- The last access of a store is its write of the register at the effective address. -/
theorem store_accesses (r : Reg) (o : MemOperand) (s : State) : ∃ (t : State) (l : List Access),
    store r o s = .next t ∧ t.pc = s.pc ∧
      t.accesses = s.accesses ++ (l ++ [{ kind := .write, addr := (s.resolve o).1, value := s.reg r }]) := by
  obtain ⟨l, hl, -, -⟩ := s.resolve_reads o
  exact ⟨_, l, rfl, s.resolve_pc o, by rw [State.busWrite_accesses, hl, List.append_assoc]⟩

/-- Settles O22: the byte written is what memory answers to the read that the next fetch makes there. -/
theorem storeIsSeenByNextFetch : Obligations.StoreIsSeenByNextFetch := by
  unfold Obligations.StoreIsSeenByNextFetch
  refine ⟨?_, ?_, ?_⟩
  · intro i s t u l e h hl he hk ha hm hx _ hu
    exact head_accesses_of_exec_write h hl he hk ha hm hx hu
  · intro i j s t u l e rest n h hl he hk hd hn ha hm hx _ hu
    rw [accesses_getElem?_of_step hd hn hu, ← ha, answer_of_exec_write h hl he hk hm hx]
  · intro i r s t u o hmn ho h hm hx ha _ hu
    obtain ⟨t', l, hstore, hpc, hl⟩ := store_accesses r o s
    cases h.symm.trans ((exec_of_store hmn ho s).trans hstore)
    rw [← hpc] at ha hx ⊢
    exact head_accesses_of_exec_write h hl (List.mem_append_right l (List.mem_singleton_self _)) rfl ha hm hx hu

end Sys2Proof.Proofs.NextFetch
end

section
/-! SUPPORT. The decoder and the encoder agree (30_encoding.md R50 to R54). What the decoder does beyond the lookup is
said once, by `decode_cons_eq_ok_iff`. The opcode matrix and the table by mnemonic are then compared: each cell of the
table by mnemonic is an entry of the matrix for just that mnemonic and mode, each entry of the matrix has its opcode in
the table by mnemonic, and each instruction is made by the entry of its opcode. -/

open Sys2Proof Sys2Proof.Machine Sys2Proof.Spec
open Sys2Proof.Proofs.StepByFetch

namespace Sys2Proof.Proofs.Encoding

/-! ### Decoding by the entries of the matrix -/

/-- The entry makes the instruction of the operand bytes, the low byte of a word first (R51, R52). -/
inductive Makes : TableEntry → Instr → List Byte → Prop where
  | plain (i : Instr) : Makes (.plain i) i []
  | byte (mk : Byte → Instr) (b : Byte) : Makes (.byteOperand mk) (mk b) [b]
  | word (mk : Address → Instr) (a : Address) : Makes (.wordOperand mk) (mk a) [lowByte a, highByte a]

theorem decodeOperands_of_makes {e : TableEntry} {i : Instr} {ops : List Byte} (op : Byte) (h : Makes e i ops)
    (rest : List Byte) : decodeOperands op e (ops ++ rest) = .ok i rest := by
  cases h with
  | plain => rfl
  | byte => rfl
  | word mk a => simp [decodeOperands]

theorem makes_of_decodeOperands {op : Byte} {e : TableEntry} {bytes rest : List Byte} {i : Instr}
    (h : decodeOperands op e bytes = .ok i rest) : ∃ ops, Makes e i ops ∧ bytes = ops ++ rest :=
  match e, bytes, h with
  | .plain _, _, rfl => ⟨_, .plain _, rfl⟩
  | .byteOperand _, _ :: _, rfl => ⟨_, .byte _ _, rfl⟩
  | .wordOperand _, lo :: hi :: _, rfl => ⟨_, .word _ (word hi lo), by simp⟩

/-- Bytes decode exactly when the matrix has an entry for the first and the operand bytes of the entry follow. -/
theorem decode_cons_eq_ok_iff {op : Byte} {bytes rest : List Byte} {i : Instr} :
    decode (op :: bytes) = .ok i rest ↔
      ∃ e ops, tableEntry op = some e ∧ Makes e i ops ∧ bytes = ops ++ rest := by
  constructor
  · intro h
    rw [decode] at h
    cases he : tableEntry op with
    | none => simp [he] at h
    | some e =>
      rw [he] at h
      obtain ⟨ops, hm, hb⟩ := makes_of_decodeOperands h
      exact ⟨e, ops, rfl, hm, hb⟩
  · rintro ⟨e, ops, he, hm, rfl⟩
    simpa only [decode, he] using decodeOperands_of_makes op hm rest

/-- Missing operand bytes are another rejection. -/
theorem decodeOperands_ne_absentOpcode (op : Byte) (e : TableEntry) (bytes : List Byte) :
    decodeOperands op e bytes ≠ .rejected (.absentOpcode op) := by
  fun_cases decodeOperands op e bytes <;> simp

/-- The rejection for an absent opcode is the empty cell (R54). -/
theorem decode_cons_eq_absentOpcode_iff {op : Byte} {rest : List Byte} :
    decode (op :: rest) = .rejected (.absentOpcode op) ↔ tableEntry op = none := by
  rw [decode]
  cases tableEntry op with
  | none => simp
  | some e => simpa using decodeOperands_ne_absentOpcode op e rest

/-! ### Assembling by the table by mnemonic -/

/-- The modes of a mnemonic are those that have a cell (R53). -/
theorem modes_eq_map_opcodeCells (mn : Mnemonic) : mn.modes = (opcodeCells mn).map Prod.fst := by
  cases mn <;> rfl

theorem hasMode_iff_exists_opcode (t : AsmTerm) : t.hasMode = true ↔ ∃ op, opcodeOf t.mnemonic t.mode = some op := by
  rw [AsmTerm.hasMode, modes_eq_map_opcodeCells, opcodeOf, ← Option.isSome_iff_exists, List.lookup_isSome_iff]
  simp

/-- A term is well formed when its mnemonic has a cell for its mode and it has the operand bytes of the mode. -/
theorem wellFormed_iff (t : AsmTerm) : t.wellFormed = true ↔
    (∃ op, opcodeOf t.mnemonic t.mode = some op) ∧ t.operands.length = t.mode.operandBytes := by
  rw [AsmTerm.wellFormed, Bool.and_eq_true, hasMode_iff_exists_opcode, AsmTerm.hasOperands, beq_iff_eq]

theorem assemble_eq_some_iff {t : AsmTerm} {bytes : List Byte} : assemble t = some bytes ↔
    t.wellFormed = true ∧ ∃ op, opcodeOf t.mnemonic t.mode = some op ∧ op :: t.operands = bytes := by
  simp only [assemble, Option.ite_none_right_eq_some, Option.map_eq_some_iff]

theorem length_operand_bytes (i : Instr) : i.operand.bytes.length = i.mode.operandBytes := by
  rw [Instr.mode]
  cases i.operand with
  | memory o => cases o <;> rfl
  | _ => rfl

theorem asm_wellFormed_of_opcode {i : Instr} {op : Byte} (h : i.opcode? = some op) : i.asm.wellFormed = true :=
  (wellFormed_iff i.asm).2 ⟨⟨op, h⟩, length_operand_bytes i⟩

/-- The encoding of an instruction is its opcode, then its operand bytes (R50). -/
theorem encode_of_opcode {i : Instr} {op : Byte} (h : i.opcode? = some op) : encode i = op :: i.operand.bytes := by
  rw [encode, assemble_eq_some_iff.2 ⟨asm_wellFormed_of_opcode h, op, h, rfl⟩, Option.getD_some]
  rfl

/-! ### The two tables agree -/

/-- Every instruction of the entry is written with the mnemonic, the mode and the operand bytes that make it. -/
def Writes (mn : Mnemonic) (m : Mode) : TableEntry → Prop
  | .plain i => i.asm = { mnemonic := mn, mode := m, operands := [] }
  | .byteOperand mk => Instr.asm ∘ mk = fun b => { mnemonic := mn, mode := m, operands := [b] }
  | .wordOperand mk => Instr.asm ∘ mk = fun a => { mnemonic := mn, mode := m, operands := [lowByte a, highByte a] }

theorem asm_of_makes {mn : Mnemonic} {m : Mode} {e : TableEntry} {i : Instr} {ops : List Byte}
    (hw : Writes mn m e) (h : Makes e i ops) : i.asm = { mnemonic := mn, mode := m, operands := ops } := by
  cases h with
  | plain => exact hw
  | byte mk b => exact congrFun hw b
  | word mk a => exact congrFun hw a

theorem length_of_makes {mn : Mnemonic} {m : Mode} {e : TableEntry} {i : Instr} {ops : List Byte}
    (hw : Writes mn m e) (h : Makes e i ops) : ops.length = m.operandBytes := by
  have hasm := asm_of_makes hw h
  have hmode : i.mode = m := congrArg AsmTerm.mode hasm
  have hops : i.operand.bytes = ops := congrArg AsmTerm.operands hasm
  rw [← hmode, ← hops, length_operand_bytes]

/-- An entry makes an instruction of any operand bytes that are as many as its mode takes. -/
theorem exists_makes {mn : Mnemonic} {m : Mode} {e : TableEntry} {ops : List Byte} (hw : Writes mn m e)
    (hl : ops.length = m.operandBytes) : ∃ i, Makes e i ops := by
  cases e with
  | plain i =>
    have hlen := hl.trans (length_of_makes hw (.plain i)).symm
    match ops, hlen with
    | [], _ => exact ⟨i, .plain i⟩
  | byteOperand mk =>
    have hlen := hl.trans (length_of_makes hw (.byte mk 0)).symm
    match ops, hlen with
    | [b], _ => exact ⟨mk b, .byte mk b⟩
  | wordOperand mk =>
    have hlen := hl.trans (length_of_makes hw (.word mk 0)).symm
    match ops, hlen with
    | [lo, hi], _ => exact ⟨mk (word hi lo), by simpa using Makes.word mk (word hi lo)⟩

/-- Every cell of the table by mnemonic is an entry of the matrix for the same mnemonic and mode (R53). -/
theorem opcodeCells_in_matrix (mn : Mnemonic) :
    (opcodeCells mn).Forall fun cell => ∃ e, tableEntry cell.2 = some e ∧ Writes mn cell.1 e := by
  cases mn <;> and_intros <;> exact ⟨_, rfl, rfl⟩

theorem tableEntry_of_opcodeOf {mn : Mnemonic} {m : Mode} {op : Byte} (h : opcodeOf mn m = some op) :
    ∃ e, tableEntry op = some e ∧ Writes mn m e := by
  obtain ⟨l, l', hcells, -⟩ := List.lookup_eq_some_iff.1 h
  exact List.forall_iff_forall_mem.1 (opcodeCells_in_matrix mn) (m, op) (by simp [hcells])

/-- One instruction of an entry, which shows the mnemonic and the mode of all. -/
def sample : TableEntry → Instr
  | .plain i => i
  | .byteOperand mk => mk 0
  | .wordOperand mk => mk 0

/-- Every entry of the matrix is a cell of the table by mnemonic: the opcode of its sample is its place (R53). -/
theorem opcode_sample {op : Byte} {e : TableEntry} (h : tableEntry op = some e) : (sample e).opcode? = some op := by
  have hall : ∀ op : Byte, (tableEntry op).all (fun e => (sample e).opcode? == some op) = true := by decide
  simpa [h] using hall op

theorem writes_of_tableEntry {op : Byte} {e : TableEntry} (h : tableEntry op = some e) :
    ∃ mn m, opcodeOf mn m = some op ∧ Writes mn m e := by
  have hop := opcode_sample h
  obtain ⟨e', he', hw⟩ := tableEntry_of_opcodeOf hop
  cases h.symm.trans he'
  exact ⟨_, _, hop, hw⟩

/-- Every instruction is made by the entry that the matrix has at its opcode. -/
theorem made_at_opcode (i : Instr) :
    ∃ op e, i.opcode? = some op ∧ tableEntry op = some e ∧ Makes e i i.operand.bytes := by
  cases i <;> exact ⟨_, _, rfl, rfl, by constructor⟩

/-! ### The obligations -/

/-- Settles O1: the matrix entry at the opcode of the encoding makes the instruction of its operand bytes. -/
theorem decodeEncodeRoundTrip : Obligations.DecodeEncodeRoundTrip := by
  unfold Obligations.DecodeEncodeRoundTrip
  intro i rest
  obtain ⟨op, e, hop, he, hm⟩ := made_at_opcode i
  rw [encode_of_opcode hop, List.cons_append, decode_cons_eq_ok_iff]
  exact ⟨e, i.operand.bytes, he, hm, rfl⟩

/-- Settles O2: the entry that decodes the bytes is a cell of the encoder's table, with the same operand bytes. -/
theorem decodedBytesAreTheEncoding : Obligations.DecodedBytesAreTheEncoding := by
  unfold Obligations.DecodedBytesAreTheEncoding
  intro bytes i rest h
  cases bytes with
  | nil => cases h
  | cons op bytes =>
    obtain ⟨e, ops, he, hm, rfl⟩ := decode_cons_eq_ok_iff.1 h
    obtain ⟨mn, m, hop, hw⟩ := writes_of_tableEntry he
    obtain ⟨rfl, rfl, rfl⟩ := AsmTerm.mk.inj (asm_of_makes hw hm)
    rw [encode_of_opcode hop, List.cons_append]

/-- Settles O3: the opcode fixes the entry, and all instructions of an entry have one mnemonic and one mode. -/
theorem opcodeAloneSelectsInstruction : Obligations.OpcodeAloneSelectsInstruction := by
  unfold Obligations.OpcodeAloneSelectsInstruction
  intro op r1 r2 t1 t2 i1 i2 h1 h2
  obtain ⟨e, ops1, he, hm1, rfl⟩ := decode_cons_eq_ok_iff.1 h1
  obtain ⟨e', ops2, he', hm2, rfl⟩ := decode_cons_eq_ok_iff.1 h2
  cases he.symm.trans he'
  obtain ⟨mn, m, -, hw⟩ := writes_of_tableEntry he
  obtain ⟨rfl, rfl, -⟩ := AsmTerm.mk.inj (asm_of_makes hw hm1)
  obtain ⟨hmn, hmode, -⟩ := AsmTerm.mk.inj (asm_of_makes hw hm2)
  refine ⟨hmn.symm, hmode.symm, ?_, ?_⟩
  · rw [List.length_append, length_of_makes hw hm1]
  · rw [List.length_append, length_of_makes hw hm2]

/-- A term is well formed exactly when it is an instruction written out (R53). -/
theorem wellFormed_iff_exists_instr (t : AsmTerm) : t.wellFormed = true ↔ ∃ i : Instr, i.asm = t := by
  constructor
  · intro h
    obtain ⟨⟨op, hop⟩, hl⟩ := (wellFormed_iff t).1 h
    obtain ⟨e, -, hw⟩ := tableEntry_of_opcodeOf hop
    obtain ⟨i, hm⟩ := exists_makes hw hl
    exact ⟨i, asm_of_makes hw hm⟩
  · rintro ⟨i, rfl⟩
    obtain ⟨op, -, hop, -⟩ := made_at_opcode i
    exact asm_wellFormed_of_opcode hop

/-- Settles O4: a term that assembles is an instruction's, so its bytes are the encoding, which O1 decodes. -/
theorem wellFormedTermsAreInstructions : Obligations.WellFormedTermsAreInstructions := by
  unfold Obligations.WellFormedTermsAreInstructions
  refine ⟨wellFormed_iff_exists_instr, fun t bytes h => ?_⟩
  obtain ⟨hwf, -⟩ := assemble_eq_some_iff.1 h
  obtain ⟨i, rfl⟩ := (wellFormed_iff_exists_instr t).1 hwf
  have henc : encode i = bytes := by rw [encode, h, Option.getD_some]
  have hd := decodeEncodeRoundTrip i []
  rw [henc, List.append_nil] at hd
  exact ⟨i, rfl, hd⟩

/-- The empty cells of the matrix are the bytes listed in R54. -/
theorem tableEntry_eq_none_iff (op : Byte) : tableEntry op = none ↔ op ∈ absentOpcodes := by
  have hall : ∀ op : Byte, tableEntry op = none → op ∈ absentOpcodes := by decide
  exact ⟨hall op, tableEntry_of_mem_absentOpcodes⟩

/-- Settles O7: the listed bytes are the empty cells, and the step at one of them takes the exception. -/
theorem absentOpcodeHaltsCore : Obligations.AbsentOpcodeHaltsCore := by
  unfold Obligations.AbsentOpcodeHaltsCore
  refine ⟨rfl, fun op rest => ?_, fun s op hh hop ha => ?_⟩
  · rw [decode_cons_eq_absentOpcode_iff, tableEntry_eq_none_iff]
  · subst hop
    rw [step_of_mem_absentOpcodes hh ha]
    rfl

/-- Settles O5: the decoder evaluates on each word. -/
theorem specWordsDecode : Obligations.SpecWordsDecode := by
  unfold Obligations.SpecWordsDecode
  decide

/-- Settles O6, by what a fetch finds at bytes that decode. -/
theorem stepRunsDecodedInstruction : Obligations.StepRunsDecodedInstruction := by
  unfold Obligations.StepRunsDecodedInstruction
  intro s i rest hh hd
  exact step_of_decode hh hd

end Sys2Proof.Proofs.Encoding
end

section
/-! SUPPORT. The effective addresses as numbers, and the reads that resolving and loading an operand make
(40_addressing_modes.md R72 to R83). -/

open Sys2Proof Sys2Proof.Machine Sys2Proof.Spec

namespace Sys2Proof.Proofs.AddressingModes

/-! ### The arithmetic of the modes -/

/-- A sum of two bytes as a zero-page address wraps within the page (R74, R75, R80). -/
theorem toNat_zext16_add (b i : Byte) : (zext16 (b + i)).toNat = (b.toNat + i.toNat) % 256 := by
  rw [toNat_zext16, BitVec.toNat_add]

/-- A byte added to an address wraps within the address space (R77, R78, R81). -/
theorem toNat_add_zext16 (a : Address) (i : Byte) : (a + zext16 i).toNat = (a.toNat + i.toNat) % 65536 := by
  rw [BitVec.toNat_add, toNat_zext16]

/-- The high byte of a zero-page pointer lies behind its low byte, within the zero page (R80, R81). -/
theorem toNat_zext16_succ (p : Byte) : (zext16 (p + 1)).toNat = ((zext16 p).toNat + 1) % 256 := by
  rw [toNat_zext16_add, toNat_zext16]
  rfl

/-! ### The reads -/

theorem busRead_eq (s : State) (p : Address) : s.busRead p = (s.answer 0 p, readAt s p) := rfl

/-- A read made before moves the index of the next free value by one, and leaves storage (log entry 3). -/
theorem answer_readAt (s : State) (p : Address) (k : Nat) (q : Address) :
    (readAt s p).answer k q = s.answer (1 + k) q :=
  State.answer_congr (s := s) (t := readAt s p) rfl rfl (Nat.add_assoc s.reads 1 k) q

/-- A word is read low byte first (R34). -/
theorem read16_eq (s : State) (lo hi : Address) :
    s.read16 lo hi = (word (s.answer 1 hi) (s.answer 0 lo), readAt (readAt s lo) hi) := by
  simp only [State.read16, busRead_eq, answer_readAt]

theorem resolve_izx (s : State) (b : Byte) :
    s.resolve (.izx b) = s.read16 (zext16 (b + s.x)) (zext16 (b + s.x + 1)) := rfl

/-- The index is added to the word after it has been read (R81). -/
theorem resolve_izy (s : State) (b : Byte) :
    s.resolve (.izy b) = ((s.read16 (zext16 b) (zext16 (b + 1))).1 + zext16 s.y,
      (s.read16 (zext16 b) (zext16 (b + 1))).2) := rfl

/-! ### The obligations -/

/-- Settles O24: each pointer mode reads the word at its pointer, and the addresses are the sums of R80 and R81. -/
theorem pointerModesResolve : Obligations.PointerModesResolve := by
  unfold Obligations.PointerModesResolve
  refine fun s b =>
    ⟨⟨zext16 (b + s.x), zext16 (b + s.x + 1), _, toNat_zext16_add b s.x, toNat_zext16_succ _, ?_,
      (resolve_izx s b).trans (read16_eq s _ _)⟩,
     ⟨zext16 b, zext16 (b + 1), _, toNat_zext16 b, toNat_zext16_succ b, ?_,
      (resolve_izy s b).trans (by rw [read16_eq])⟩⟩
  · exact toNat_word _ _
  · rw [toNat_add_zext16, toNat_word]

/-- Settles O23: each address is its sum as a number. -/
theorem directModesResolve : Obligations.DirectModesResolve := by
  unfold Obligations.DirectModesResolve
  exact fun s b a => ⟨⟨_, rfl, toNat_zext16 b⟩, ⟨_, rfl, toNat_zext16_add b s.x⟩, ⟨_, rfl, toNat_zext16_add b s.y⟩,
    rfl, ⟨_, rfl, toNat_add_zext16 a s.x⟩, ⟨_, rfl, toNat_add_zext16 a s.y⟩⟩

/-- Settles O25: the load of a memory operand is its resolution and one read of the port. -/
theorem loadOperandReadsOnce : Obligations.LoadOperandReadsOnce := by
  unfold Obligations.LoadOperandReadsOnce
  exact fun s => ⟨State.loadOperand_immediate s, fun o => by rw [State.loadOperand_memory, busRead_eq]⟩

end Sys2Proof.Proofs.AddressingModes
end

section
/-! SUPPORT. The cells that the Instruction Table gives a mnemonic (30_encoding.md R53): the decoder has each of them
and no other, so a list of modes and opcode bytes that stands in the table by mnemonic needs no proof of its own. The
mode of an instruction is one of the modes of its mnemonic, which tells what operand the instruction has. -/

open Sys2Proof Sys2Proof.Machine Sys2Proof.Spec
open Sys2Proof.Proofs.Encoding

namespace Sys2Proof.Proofs.OpcodeCells

theorem mem_opcodeCells_of_opcodeOf {mn : Mnemonic} {m : Mode} {op : Byte} (h : opcodeOf mn m = some op) :
    (m, op) ∈ opcodeCells mn := by
  obtain ⟨l, l', hcells, -⟩ := List.lookup_eq_some_iff.1 h
  simp [hcells]

/-- Two bytes are enough for the operand of any mode (R51). -/
theorem length_take_operandBytes (m : Mode) (b1 b2 : Byte) :
    ([b1, b2].take m.operandBytes).length = m.operandBytes := by
  cases m <;> rfl

/-- The cells of a mnemonic in the table by mnemonic are those that the decoder gives it (R53). -/
theorem encodedAs_opcodeCells (mn : Mnemonic) : EncodedAs mn (opcodeCells mn) := by
  intro m op b1 b2
  constructor
  · intro hcell
    obtain ⟨e, he, hw⟩ := List.forall_iff_forall_mem.1 (opcodeCells_in_matrix mn) (m, op) hcell
    obtain ⟨i, hm⟩ := exists_makes hw (length_take_operandBytes m b1 b2)
    obtain ⟨hmn, hmode, -⟩ := AsmTerm.mk.inj (asm_of_makes hw hm)
    exact ⟨i, _, decode_cons_eq_ok_iff.2 ⟨e, _, he, hm, (List.take_append_drop _ _).symm⟩, hmn, hmode⟩
  · rintro ⟨i, rest, hd, rfl, rfl⟩
    obtain ⟨e, ops, he, hm, -⟩ := decode_cons_eq_ok_iff.1 hd
    obtain ⟨mn, m, hop, hw⟩ := writes_of_tableEntry he
    obtain ⟨rfl, rfl, -⟩ := AsmTerm.mk.inj (asm_of_makes hw hm)
    exact mem_opcodeCells_of_opcodeOf hop

theorem mode_mem_modes (i : Instr) : i.mode ∈ i.mnemonic.modes := by
  obtain ⟨op, -, hop, -⟩ := made_at_opcode i
  rw [modes_eq_map_opcodeCells]
  exact List.mem_map_of_mem (mem_opcodeCells_of_opcodeOf hop)

theorem exists_memory_of_mode {o : Operand} (h : o.mode ∉ [.imp, .acc, .imm, .ind, .rel]) :
    ∃ m, o = .memory m := by
  cases o with
  | memory m => exact ⟨m, rfl⟩
  | implied | accumulator | immediate | indirect | relative => exact absurd h (by simp [Operand.mode])

end Sys2Proof.Proofs.OpcodeCells
end

section
/-! SUPPORT. The loads, stores and transfers (41_load_store_transfer.md R90 to R101). Each mnemonic is one of the shared
meanings `load`, `store`, `transfer` at its register, and the whole next state of each shared meaning is said once, for
every register. -/

open Sys2Proof Sys2Proof.Machine Sys2Proof.Spec
open Sys2Proof.Proofs.OpcodeCells

namespace Sys2Proof.Proofs.LoadStoreTransfer

/-! ### Setting `Z` and `N` -/

/-- The model's `setZN` is that of R20, where `Z` compares the byte as a number. -/
theorem setZN_eq_withZN (f : Flags) (v : Byte) : f.setZN v = withZN f v := by
  have hz : (v == 0x00) = decide (v.toNat = 0) := Bool.eq_iff_iff.2 (by simp [← BitVec.toNat_inj])
  rw [Flags.setZN, withZN, hz, bit]

/-- A byte put in a register, with `Z` and `N` set from it. -/
theorem setReg_setZN (s : State) (r : Reg) (v : Byte) :
    (s.setReg r v).setZN v = { s.setReg r v with flags := withZN s.flags v } := by
  rw [State.setZN, setZN_eq_withZN, State.setReg_flags, State.setFlags]

/-! ### Loads -/

theorem load_eq (r : Reg) (src : Source) (s : State) :
    load r src s = .next { (s.loadOperand src).2.setReg r (s.loadOperand src).1 with
      flags := withZN s.flags (s.loadOperand src).1 } := by
  rw [load, setReg_setZN, State.loadOperand_flags]

theorem exec_of_lda {i : Instr} (h : i.mnemonic = .lda) (s : State) :
    ∃ src, i.operand.source? = some src ∧ exec i s = load .a src s :=
  match i, h with
  | .ldaImm _, _ | .ldaZp _, _ | .ldaZpx _, _ | .ldaAbs _, _ | .ldaAbx _, _ | .ldaAby _, _ | .ldaIzx _, _
  | .ldaIzy _, _ => ⟨_, rfl, rfl⟩

theorem exec_of_ldx {i : Instr} (h : i.mnemonic = .ldx) (s : State) :
    ∃ src, i.operand.source? = some src ∧ exec i s = load .x src s :=
  match i, h with
  | .ldxImm _, _ | .ldxZp _, _ | .ldxZpy _, _ | .ldxAbs _, _ | .ldxAby _, _ => ⟨_, rfl, rfl⟩

theorem exec_of_ldy {i : Instr} (h : i.mnemonic = .ldy) (s : State) :
    ∃ src, i.operand.source? = some src ∧ exec i s = load .y src s :=
  match i, h with
  | .ldyImm _, _ | .ldyZp _, _ | .ldyZpx _, _ | .ldyAbs _, _ | .ldyAbx _, _ => ⟨_, rfl, rfl⟩

/-- Settles O26: each form is the shared load of its register, and the cells are those of the table by mnemonic. -/
theorem loadsSetRegisterAndZN : Obligations.LoadsSetRegisterAndZN := by
  unfold Obligations.LoadsSetRegisterAndZN
  refine ⟨fun i s h => ?_, fun i s h => ?_, fun i s h => ?_,
    encodedAs_opcodeCells .lda, encodedAs_opcodeCells .ldx, encodedAs_opcodeCells .ldy⟩
  · obtain ⟨src, ho, hload⟩ := exec_of_lda h s
    exact ⟨src, _, _, ho, rfl, hload.trans (load_eq .a src s)⟩
  · obtain ⟨src, ho, hload⟩ := exec_of_ldx h s
    exact ⟨src, _, _, ho, rfl, hload.trans (load_eq .x src s)⟩
  · obtain ⟨src, ho, hload⟩ := exec_of_ldy h s
    exact ⟨src, _, _, ho, rfl, hload.trans (load_eq .y src s)⟩

/-! ### Stores -/

section
variable {i : Instr} {r : Reg} (hm : (i.mnemonic, r) ∈ [(Mnemonic.sta, Reg.a), (.stx, .x), (.sty, .y)])
include hm

/-- The stores have memory modes only (R53). -/
theorem exists_memory_of_store : ∃ o, i.operand = .memory o := by
  have hmodes : ∀ p ∈ [(Mnemonic.sta, Reg.a), (.stx, .x), (.sty, .y)], ∀ m ∈ p.1.modes,
      m ∉ [Mode.imp, .acc, .imm, .ind, .rel] := by decide
  exact exists_memory_of_mode (hmodes _ hm _ (mode_mem_modes i))

/-- A store resolves its operand, then writes its register there (R93 to R95). -/
theorem exec_store_written (s : State) : ∃ o ea t, i.operand = .memory o ∧ s.resolve o = (ea, t) ∧
    exec i s = .next (written t ea (s.reg r)) := by
  obtain ⟨o, ho⟩ := exists_memory_of_store hm
  exact ⟨o, _, _, ho, rfl, NextFetch.exec_of_store hm ho s⟩

/-- With storage at the effective address, the byte there is then the register (R39, R93 to R95). -/
theorem byteAt_of_store {s t : State} {o : MemOperand} (h : exec i s = .next t) (ho : i.operand = .memory o)
    (hwf : s.mem.wf = true) (hx : s.isExternal (s.resolve o).1 = false) : t.byteAt (s.resolve o).1 = s.reg r := by
  cases h.symm.trans (NextFetch.exec_of_store hm ho s)
  have hwf' : (s.resolve o).2.mem.wf = true := by rwa [State.resolve_mem]
  have hx' : (s.resolve o).2.isExternal (s.resolve o).1 = false := by
    rwa [State.isExternal_congr (State.resolve_external s o)]
  exact State.byteAt_busWrite_self hwf' (s.reg r) hx'

end

/-- Settles O27: each form is the shared store of its register, and the cells are those of the table by mnemonic. -/
theorem storesWriteRegister : Obligations.StoresWriteRegister := by
  unfold Obligations.StoresWriteRegister
  exact ⟨fun i s h => exec_store_written (r := .a) (by simp [h]) s,
    fun i s h => exec_store_written (r := .x) (by simp [h]) s,
    fun i s h => exec_store_written (r := .y) (by simp [h]) s,
    encodedAs_opcodeCells .sta, encodedAs_opcodeCells .stx, encodedAs_opcodeCells .sty⟩

/-- Settles O57: resolving the operand leaves storage, and the write puts the register there. -/
theorem storedByteIsTheRegister : Obligations.StoredByteIsTheRegister := by
  unfold Obligations.StoredByteIsTheRegister
  exact fun i s t o h ho hwf hx => ⟨fun hm => byteAt_of_store (r := .a) (by simp [hm]) h ho hwf hx,
    fun hm => byteAt_of_store (r := .x) (by simp [hm]) h ho hwf hx,
    fun hm => byteAt_of_store (r := .y) (by simp [hm]) h ho hwf hx⟩

/-! ### Transfers -/

theorem transfer_eq (src dst : Reg) (s : State) :
    transfer src dst s = .next { s.setReg dst (s.reg src) with flags := withZN s.flags (s.reg src) } := by
  rw [transfer, setReg_setZN]

/-- Settles O28: five are the shared transfer, TXS is the bare register write, and each has its one cell. -/
theorem transfersCopyRegister : Obligations.TransfersCopyRegister := by
  unfold Obligations.TransfersCopyRegister
  exact ⟨transfer_eq .a .x, transfer_eq .a .y, transfer_eq .x .a, transfer_eq .y .a, transfer_eq .sp .x, fun _ => rfl,
    encodedAs_opcodeCells .tax, encodedAs_opcodeCells .tay, encodedAs_opcodeCells .txa, encodedAs_opcodeCells .tya,
    encodedAs_opcodeCells .tsx, encodedAs_opcodeCells .txs⟩

end Sys2Proof.Proofs.LoadStoreTransfer
end

section
/-! SUPPORT. The adder, ADC, SBC and the compares (42_arithmetic_compare.md R110 to R117). Bit 7 of a byte says whether
its signed value is its number or 256 less, which makes the adder's overflow a statement about the signed sum; SBC is
the adder at the one's complement, whose signed value is `-1 - m`, so what it computes needs no second proof. -/

open Sys2Proof Sys2Proof.Machine Sys2Proof.Spec
open Sys2Proof.Proofs.OpcodeCells Sys2Proof.Proofs.LoadStoreTransfer

namespace Sys2Proof.Proofs.ArithmeticCompare

/-! ### Bytes as signed numbers, and the one's complement -/

theorem getLsbD_seven (v : Byte) : v.getLsbD 7 = decide (128 ≤ v.toNat) := bit_seven v

theorem toInt_byte (v : Byte) : v.toInt = if 128 ≤ v.toNat then (v.toNat : Int) - 256 else v.toNat := by
  rw [BitVec.toInt_eq_msb_cond, BitVec.msb_eq_decide]
  simp

theorem toNat_complement (m : Byte) : (m ^^^ 0xFF).toNat = 255 - m.toNat := by
  have h : m ^^^ 0xFF = ~~~m := BitVec.xor_allOnes
  rw [h, BitVec.toNat_not]

theorem toInt_complement (m : Byte) : (m ^^^ 0xFF).toInt = -1 - m.toInt := by
  have := m.isLt
  rw [toInt_byte, toInt_byte, toNat_complement]
  split <;> split <;> omega

/-! ### The adder -/

section
variable (a m : Byte) (c : Bool)

theorem toNat_adc8_r : (adc8 a m c).r.toNat = (a.toNat + m.toNat + c.toNat) % 256 := BitVec.toNat_ofNat _ 8

theorem adc8_carry : (adc8 a m c).carry = decide (a.toNat + m.toNat + c.toNat > 255) := rfl

/-- The carry is bit 8 of the sum (R110). -/
theorem toNat_adc8_carry : (adc8 a m c).carry.toNat = (a.toNat + m.toNat + c.toNat) / 256 := by
  have := a.isLt
  have := m.isLt
  have := c.toNat_le
  rw [adc8_carry, Bool.toNat, Bool.cond_decide]
  split <;> omega

/-- The operands agree in bit 7 and the result differs (R110). -/
theorem adc8_overflow : (adc8 a m c).overflow =
    decide (a.getLsbD 7 = m.getLsbD 7 ∧ (adc8 a m c).r.getLsbD 7 ≠ a.getLsbD 7) := by
  rw [Bool.decide_and, decide_not, ← beq_eq_decide, ← beq_eq_decide]
  rfl

theorem adc8_overflow_iff : (adc8 a m c).overflow = true ↔
    a.toInt + m.toInt + (c.toNat : Int) < -128 ∨ 127 < a.toInt + m.toInt + (c.toNat : Int) := by
  have := a.isLt
  have := m.isLt
  have := c.toNat_le
  rw [adc8_overflow, toInt_byte a, toInt_byte m, getLsbD_seven, getLsbD_seven, getLsbD_seven, toNat_adc8_r]
  simp only [decide_eq_true_eq, ne_eq, decide_eq_decide]
  split <;> split <;> omega

end

/-- Settles O30: the sum is its low byte and its bit 8, and bit 7 of each summand is its sign. -/
theorem adderOverflowIsSignedRange : Obligations.AdderOverflowIsSignedRange := by
  unfold Obligations.AdderOverflowIsSignedRange
  refine fun a m c => ⟨?_, ?_, adc8_overflow_iff a m c⟩
  · rw [toNat_adc8_r, toNat_adc8_carry, Nat.mod_add_div]
  · rw [adc8_overflow, Bool.decide_and]

/-- Settles O31: the adder's facts at the complement, which is `255 - m` unsigned and `-1 - m` signed. -/
theorem subtractionIsBorrowArithmetic : Obligations.SubtractionIsBorrowArithmetic := by
  unfold Obligations.SubtractionIsBorrowArithmetic
  intro a m c
  have := a.isLt
  have := m.isLt
  have := c.toNat_le
  refine ⟨?_, ?_, ?_⟩
  · apply BitVec.eq_of_toNat_eq
    rw [toNat_adc8_r, toNat_complement, BitVec.toNat_sub, BitVec.toNat_sub, BitVec.toNat_ofNat]
    omega
  · rw [adc8_carry, toNat_complement, decide_eq_true_iff]
    omega
  · rw [adc8_overflow_iff, toInt_complement]
    omega

/-! ### ADC and SBC -/

theorem setAdd_adc8 (f : Flags) (a m : Byte) (c : Bool) : f.setAdd (adc8 a m c) =
    withZN { f with
      c := decide (a.toNat + m.toNat + c.toNat > 255)
      v := decide (a.getLsbD 7 = m.getLsbD 7 ∧ (adc8 a m c).r.getLsbD 7 ≠ a.getLsbD 7) } (adc8 a m c).r := by
  rw [Flags.setAdd, setZN_eq_withZN, adc8_overflow, adc8_carry]

theorem addCarry_eq (src : Source) (s : State) :
    let sum := adc8 s.a (s.loadOperand src).1 s.flags.c
    addCarry src s = .next { (s.loadOperand src).2 with a := sum.r, flags := s.flags.setAdd sum } := by
  rw [addCarry, State.loadOperand_a, State.loadOperand_flags]
  rfl

theorem subCarry_eq (src : Source) (s : State) :
    let sum := adc8 s.a ((s.loadOperand src).1 ^^^ 0xFF) s.flags.c
    subCarry src s = .next { (s.loadOperand src).2 with a := sum.r, flags := s.flags.setAdd sum } := by
  rw [subCarry, State.loadOperand_a, State.loadOperand_flags]
  rfl

theorem exec_of_adc {i : Instr} (h : i.mnemonic = .adc) (s : State) :
    ∃ src, i.operand.source? = some src ∧ exec i s = addCarry src s :=
  match i, h with
  | .adcImm _, _ | .adcZp _, _ | .adcZpx _, _ | .adcAbs _, _ | .adcAbx _, _ | .adcAby _, _ | .adcIzx _, _
  | .adcIzy _, _ => ⟨_, rfl, rfl⟩

theorem exec_of_sbc {i : Instr} (h : i.mnemonic = .sbc) (s : State) :
    ∃ src, i.operand.source? = some src ∧ exec i s = subCarry src s :=
  match i, h with
  | .sbcImm _, _ | .sbcZp _, _ | .sbcZpx _, _ | .sbcAbs _, _ | .sbcAbx _, _ | .sbcAby _, _ | .sbcIzx _, _
  | .sbcIzy _, _ => ⟨_, rfl, rfl⟩

/-- Settles O29: each form is the shared meaning of its mnemonic, whose flags are the adder's, and the cells are those
of the table by mnemonic. -/
theorem addAndSubtractWithCarry : Obligations.AddAndSubtractWithCarry := by
  unfold Obligations.AddAndSubtractWithCarry
  refine ⟨fun i s h => ?_, fun i s h => ?_, encodedAs_opcodeCells .adc, encodedAs_opcodeCells .sbc⟩
  · obtain ⟨src, ho, hadc⟩ := exec_of_adc h s
    refine ⟨src, _, _, ho, rfl, _, _, rfl, toNat_adc8_r _ _ _, ?_⟩
    rw [hadc, addCarry_eq, setAdd_adc8]
    rfl
  · obtain ⟨src, ho, hsbc⟩ := exec_of_sbc h s
    refine ⟨src, _, _, ho, rfl, _, _, _, rfl, rfl, toNat_adc8_r _ _ _, ?_⟩
    rw [hsbc, subCarry_eq, setAdd_adc8]
    rfl

/-! ### The compares -/

/-- `Z` and `N` of the difference as numbers (R113). -/
theorem setCmp_eq (f : Flags) (reg m : Byte) : f.setCmp reg m = { f with
    c := decide (reg.toNat ≥ m.toNat), z := decide (reg = m)
    n := decide ((reg.toNat + 256 - m.toNat) % 256 ≥ 128) } := by
  have hn : (reg - m).toNat = (reg.toNat + 256 - m.toNat) % 256 := by
    have := m.isLt
    rw [BitVec.toNat_sub]
    omega
  rw [Flags.setCmp, bit_seven, hn]
  rfl

theorem compare_eq (r : Reg) (src : Source) (s : State) : Machine.compare r src s =
    .next { (s.loadOperand src).2 with flags := s.flags.setCmp (s.reg r) (s.loadOperand src).1 } := by
  have hr : (s.loadOperand src).2.reg r = s.reg r := by cases r <;> simp [State.reg]
  rw [Machine.compare, hr, State.loadOperand_flags, State.setFlags]

theorem exec_of_cmp {i : Instr} (h : i.mnemonic = .cmp) (s : State) :
    ∃ src, i.operand.source? = some src ∧ exec i s = Machine.compare .a src s :=
  match i, h with
  | .cmpImm _, _ | .cmpZp _, _ | .cmpZpx _, _ | .cmpAbs _, _ | .cmpAbx _, _ | .cmpAby _, _ | .cmpIzx _, _
  | .cmpIzy _, _ => ⟨_, rfl, rfl⟩

theorem exec_of_cpx {i : Instr} (h : i.mnemonic = .cpx) (s : State) :
    ∃ src, i.operand.source? = some src ∧ exec i s = Machine.compare .x src s :=
  match i, h with
  | .cpxImm _, _ | .cpxZp _, _ | .cpxAbs _, _ => ⟨_, rfl, rfl⟩

theorem exec_of_cpy {i : Instr} (h : i.mnemonic = .cpy) (s : State) :
    ∃ src, i.operand.source? = some src ∧ exec i s = Machine.compare .y src s :=
  match i, h with
  | .cpyImm _, _ | .cpyZp _, _ | .cpyAbs _, _ => ⟨_, rfl, rfl⟩

/-- Settles O32: each form is the shared compare of its register, and the cells are those of the table by mnemonic. -/
theorem comparesSetCarryZeroNegative : Obligations.ComparesSetCarryZeroNegative := by
  unfold Obligations.ComparesSetCarryZeroNegative
  refine ⟨fun i s h => ?_, fun i s h => ?_, fun i s h => ?_,
    encodedAs_opcodeCells .cmp, encodedAs_opcodeCells .cpx, encodedAs_opcodeCells .cpy⟩
  · obtain ⟨src, ho, hcmp⟩ := exec_of_cmp h s
    exact ⟨src, _, _, ho, rfl, by rw [hcmp, compare_eq, setCmp_eq]; rfl⟩
  · obtain ⟨src, ho, hcpx⟩ := exec_of_cpx h s
    exact ⟨src, _, _, ho, rfl, by rw [hcpx, compare_eq, setCmp_eq]; rfl⟩
  · obtain ⟨src, ho, hcpy⟩ := exec_of_cpy h s
    exact ⟨src, _, _, ho, rfl, by rw [hcpy, compare_eq, setCmp_eq]; rfl⟩

end Sys2Proof.Proofs.ArithmeticCompare
end

section
/-! SUPPORT. The logical instructions, the shifts and the rotates (43_logical_shift_rotate.md R120 to R127). Each
mnemonic is one of the shared meanings `logical`, `shift` at its operation, in every form; the whole next state of each
shared meaning is said once, for every operation, and what each shift computes is said as a number. -/

open Sys2Proof Sys2Proof.Machine Sys2Proof.Spec
open Sys2Proof.Proofs.AddressingModes Sys2Proof.Proofs.OpcodeCells Sys2Proof.Proofs.LoadStoreTransfer

namespace Sys2Proof.Proofs.LogicalShiftRotate

/-! ### AND, ORA, EOR -/

/-- What a logical instruction does to `A` and the operand (R120 to R122). -/
def logicalOp? : Mnemonic → Option (Byte → Byte → Byte)
  | .and => some (· &&& ·)
  | .ora => some (· ||| ·)
  | .eor => some (· ^^^ ·)
  | _ => none

/-- Every form of AND, ORA, EOR is the shared meaning at the operation of its mnemonic. -/
theorem exec_of_logicalOp {i : Instr} {op : Byte → Byte → Byte} (h : logicalOp? i.mnemonic = some op) (s : State) :
    ∃ src, i.operand.source? = some src ∧ exec i s = logical op src s :=
  match i, h with
  | .andImm _, rfl | .andZp _, rfl | .andZpx _, rfl | .andAbs _, rfl | .andAbx _, rfl | .andAby _, rfl
  | .andIzx _, rfl | .andIzy _, rfl
  | .oraImm _, rfl | .oraZp _, rfl | .oraZpx _, rfl | .oraAbs _, rfl | .oraAbx _, rfl | .oraAby _, rfl
  | .oraIzx _, rfl | .oraIzy _, rfl
  | .eorImm _, rfl | .eorZp _, rfl | .eorZpx _, rfl | .eorAbs _, rfl | .eorAbx _, rfl | .eorAby _, rfl
  | .eorIzx _, rfl | .eorIzy _, rfl => ⟨_, rfl, rfl⟩

theorem logical_eq (op : Byte → Byte → Byte) (src : Source) (s : State) :
    let r := op s.a (s.loadOperand src).1
    logical op src s = .next { (s.loadOperand src).2 with a := r, flags := withZN s.flags r } := by
  rw [logical, State.loadOperand_a, setReg_setZN, State.loadOperand_flags]
  rfl

/-- Settles O33: each form is the shared meaning at its operation, which combines the bits one by one, and the cells are
those of the table by mnemonic. -/
theorem logicalCombinesBits : Obligations.LogicalCombinesBits := by
  unfold Obligations.LogicalCombinesBits
  refine ⟨fun i s h => ?_, fun i s h => ?_, fun i s h => ?_,
    encodedAs_opcodeCells .and, encodedAs_opcodeCells .ora, encodedAs_opcodeCells .eor⟩
  · obtain ⟨src, ho, hand⟩ := exec_of_logicalOp (op := (· &&& ·)) (by rw [h]; rfl) s
    exact ⟨src, _, _, _, ho, rfl, fun _ => BitVec.getLsbD_and, hand.trans (logical_eq _ src s)⟩
  · obtain ⟨src, ho, hora⟩ := exec_of_logicalOp (op := (· ||| ·)) (by rw [h]; rfl) s
    exact ⟨src, _, _, _, ho, rfl, fun _ => BitVec.getLsbD_or, hora.trans (logical_eq _ src s)⟩
  · obtain ⟨src, ho, heor⟩ := exec_of_logicalOp (op := (· ^^^ ·)) (by rw [h]; rfl) s
    exact ⟨src, _, _, _, ho, rfl, fun _ => BitVec.getLsbD_xor, heor.trans (logical_eq _ src s)⟩

/-! ### A shift or rotate of any target -/

/-- What a shift or rotate does to the incoming Carry and the byte (R123 to R126). -/
def shiftOp? : Mnemonic → Option (Bool → Byte → Shifted)
  | .asl => some fun _ v => asl8 v
  | .lsr => some fun _ v => lsr8 v
  | .rol => some fun cin v => rol8 v cin
  | .ror => some fun cin v => ror8 v cin
  | _ => none

/-- Every form of ASL, LSR, ROL, ROR is the shared meaning at the operation of its mnemonic and its target. -/
theorem exec_of_shiftOp {i : Instr} {op : Bool → Byte → Shifted} {tgt : Target}
    (h : shiftOp? i.mnemonic = some op) (ho : i.operand.target? = some tgt) (s : State) :
    exec i s = shift op tgt s :=
  match i, h, ho with
  | .aslZp _, rfl, rfl | .aslZpx _, rfl, rfl | .aslAbs _, rfl, rfl | .aslAbx _, rfl, rfl | .aslAcc, rfl, rfl
  | .lsrZp _, rfl, rfl | .lsrZpx _, rfl, rfl | .lsrAbs _, rfl, rfl | .lsrAbx _, rfl, rfl | .lsrAcc, rfl, rfl
  | .rolZp _, rfl, rfl | .rolZpx _, rfl, rfl | .rolAbs _, rfl, rfl | .rolAbx _, rfl, rfl | .rolAcc, rfl, rfl
  | .rorZp _, rfl, rfl | .rorZpx _, rfl, rfl | .rorAbs _, rfl, rfl | .rorAbx _, rfl, rfl | .rorAcc, rfl, rfl => rfl

theorem setShift_eq (f : Flags) (x : Shifted) : f.setShift x = withZN { f with c := x.carry } x.r :=
  setZN_eq_withZN _ _

section
variable {i : Instr} {op : Bool → Byte → Shifted} {n : Bool → Byte → Nat} {c : Byte → Bool}
  (h : shiftOp? i.mnemonic = some op) (hr : ∀ cin v, (op cin v).r.toNat = n cin v)
  (hc : ∀ cin v, (op cin v).carry = c v)
include h hr hc

/-- The accumulator form, by what the operation computes: no memory is touched (R127). -/
theorem exec_shift_accumulator (ho : i.operand = .accumulator) (s : State) :
    ∃ r : Byte, r.toNat = n s.flags.c s.a ∧ exec i s = .next { s with
      a := r, flags := withZN { s.flags with c := c s.a } r } := by
  refine ⟨_, hr _ _, ?_⟩
  rw [exec_of_shiftOp (tgt := .accumulator) h (by rw [ho]; rfl), shift, setShift_eq, hc]
  rfl

/-- A memory form, by what the operation computes: one read, then one write, of the effective address (R127). -/
theorem exec_shift_memory {o : MemOperand} (ho : i.operand = .memory o) (s : State) :
    ∃ ea t v, ∃ r : Byte, s.resolve o = (ea, t) ∧ v = t.answer 0 ea ∧ r.toNat = n s.flags.c v ∧
      exec i s = .next { written (readAt t ea) ea r with flags := withZN { s.flags with c := c v } r } := by
  refine ⟨_, _, _, _, rfl, rfl, hr _ _, ?_⟩
  rw [exec_of_shiftOp (tgt := .memory o) h (by rw [ho]; rfl), shift, setShift_eq, hc, busRead_eq]
  rfl

end

/-! ### What each operation computes -/

theorem toNat_asl8 (v : Byte) : (asl8 v).r.toNat = v.toNat * 2 % 256 := by
  simp [asl8, Nat.shiftLeft_eq]

theorem toNat_lsr8 (v : Byte) : (lsr8 v).r.toNat = v.toNat / 2 := by
  simp [lsr8, Nat.shiftRight_one]

/-- Setting a bit that is 0 adds its weight. -/
theorem toNat_or_clear_bit {x : Byte} {k : Nat} (hk : k < 8) (hx : x.getLsbD k = false) (b : Bool) :
    (x ||| if b then BitVec.twoPow 8 k else 0).toNat = x.toNat + 2 ^ k * b.toNat := by
  cases b with
  | false => simp
  | true =>
    have hdisj : x &&& BitVec.twoPow 8 k = 0#8 := by simp [BitVec.and_twoPow, hx]
    rw [if_pos rfl, ← BitVec.add_eq_or_of_and_eq_zero _ _ hdisj, BitVec.toNat_add_of_and_eq_zero hdisj,
      BitVec.toNat_twoPow_of_lt hk, Bool.toNat_true, Nat.mul_one]

/-- ROL is ASL with the incoming Carry in bit 0, which ASL leaves 0 (R125). -/
theorem toNat_rol8 (cin : Bool) (v : Byte) : (rol8 v cin).r.toNat = v.toNat * 2 % 256 + cin.toNat := by
  have hclear : (asl8 v).r.getLsbD 0 = false := by simp [asl8]
  have hsum := toNat_or_clear_bit (by decide) hclear cin
  rwa [toNat_asl8, Nat.pow_zero, Nat.one_mul] at hsum

/-- ROR is LSR with the incoming Carry in bit 7, which LSR leaves 0 (R126). -/
theorem toNat_ror8 (cin : Bool) (v : Byte) : (ror8 v cin).r.toNat = v.toNat / 2 + 128 * cin.toNat := by
  have hclear : (lsr8 v).r.getLsbD 7 = false := by simp [lsr8]
  have hsum := toNat_or_clear_bit (by decide) hclear cin
  rwa [toNat_lsr8] at hsum

/-! ### The obligations of the shifts and rotates -/

/-- Settles O34: each form is the shared meaning at its operation, and the cells are those of the table by mnemonic. -/
theorem shiftsMoveOneBit : Obligations.ShiftsMoveOneBit := by
  unfold Obligations.ShiftsMoveOneBit
  exact ⟨exec_shift_accumulator rfl (fun _ => toNat_asl8) (fun _ => bit_seven) rfl,
    fun i s o h ho => exec_shift_memory (by rw [h]; rfl) (fun _ => toNat_asl8) (fun _ => bit_seven) ho s,
    exec_shift_accumulator rfl (fun _ => toNat_lsr8) (fun _ => bit_zero) rfl,
    fun i s o h ho => exec_shift_memory (by rw [h]; rfl) (fun _ => toNat_lsr8) (fun _ => bit_zero) ho s,
    encodedAs_opcodeCells .asl, encodedAs_opcodeCells .lsr⟩

/-- Settles O35: each form is the shared meaning at its operation, and the cells are those of the table by mnemonic. -/
theorem rotatesMoveThroughCarry : Obligations.RotatesMoveThroughCarry := by
  unfold Obligations.RotatesMoveThroughCarry
  exact ⟨exec_shift_accumulator rfl toNat_rol8 (fun _ => bit_seven) rfl,
    fun i s o h ho => exec_shift_memory (by rw [h]; rfl) toNat_rol8 (fun _ => bit_seven) ho s,
    exec_shift_accumulator rfl toNat_ror8 (fun _ => bit_zero) rfl,
    fun i s o h ho => exec_shift_memory (by rw [h]; rfl) toNat_ror8 (fun _ => bit_zero) ho s,
    encodedAs_opcodeCells .rol, encodedAs_opcodeCells .ror⟩

end Sys2Proof.Proofs.LogicalShiftRotate
end

section
/-! SUPPORT. INC, DEC, INX, INY, DEX, DEY and BIT (44_incdec_bit.md R130 to R136). Each mnemonic is one of the shared
meanings `modify`, `modifyReg`, `bitTest`; the whole next state of each shared meaning is said once, for every
operation and register, and the two operations are said as numbers modulo 256. -/

open Sys2Proof Sys2Proof.Machine Sys2Proof.Spec
open Sys2Proof.Proofs.AddressingModes Sys2Proof.Proofs.OpcodeCells Sys2Proof.Proofs.LoadStoreTransfer

namespace Sys2Proof.Proofs.IncDecBit

/-! ### The operations modulo 256 -/

theorem toNat_increment (v : Byte) : (v + 1).toNat = (v.toNat + 1) % 256 := BitVec.toNat_add v 1

/-- Subtracting 1 is adding 255 (R131). -/
theorem toNat_decrement (v : Byte) : (v - 1).toNat = (v.toNat + 255) % 256 := by
  rw [BitVec.toNat_sub, Nat.add_comm]
  rfl

/-! ### INC and DEC -/

/-- The byte is read once at the effective address and the result written there once (R130, R131). -/
theorem modify_eq (op : Byte → Byte) (o : MemOperand) (s : State) :
    let ea := (s.resolve o).1
    let t := (s.resolve o).2
    let r := op (t.answer 0 ea)
    Machine.modify op o s = .next { written (readAt t ea) ea r with flags := withZN s.flags r } := by
  rw [Machine.modify, State.setZN, setZN_eq_withZN,
    State.busWrite_flags, State.busRead_flags, State.resolve_flags, busRead_eq]
  rfl

theorem exec_of_inc {i : Instr} (h : i.mnemonic = .inc) (s : State) :
    ∃ o, i.operand = .memory o ∧ exec i s = Machine.modify (· + 1) o s :=
  match i, h with
  | .incZp _, _ | .incZpx _, _ | .incAbs _, _ | .incAbx _, _ => ⟨_, rfl, rfl⟩

theorem exec_of_dec {i : Instr} (h : i.mnemonic = .dec) (s : State) :
    ∃ o, i.operand = .memory o ∧ exec i s = Machine.modify (· - 1) o s :=
  match i, h with
  | .decZp _, _ | .decZpx _, _ | .decAbs _, _ | .decAbx _, _ => ⟨_, rfl, rfl⟩

/-- Settles O36: each form is the shared read-modify-write at its operation, and the cells are those of the table by
mnemonic. -/
theorem memoryIncrementAndDecrement : Obligations.MemoryIncrementAndDecrement := by
  unfold Obligations.MemoryIncrementAndDecrement
  refine ⟨fun i s h => ?_, fun i s h => ?_, encodedAs_opcodeCells .inc, encodedAs_opcodeCells .dec⟩
  · obtain ⟨o, ho, hinc⟩ := exec_of_inc h s
    exact ⟨o, _, _, _, ho, rfl, toNat_increment _, hinc.trans (modify_eq _ o s)⟩
  · obtain ⟨o, ho, hdec⟩ := exec_of_dec h s
    exact ⟨o, _, _, _, ho, rfl, toNat_decrement _, hdec.trans (modify_eq _ o s)⟩

/-! ### INX, INY, DEX, DEY -/

theorem modifyReg_eq (op : Byte → Byte) (r : Reg) (s : State) :
    modifyReg op r s = .next { s.setReg r (op (s.reg r)) with flags := withZN s.flags (op (s.reg r)) } := by
  rw [modifyReg, setReg_setZN]

/-- Settles O37: each is the shared register change at its operation and register, and has its one cell. -/
theorem registerIncrementAndDecrement : Obligations.RegisterIncrementAndDecrement := by
  unfold Obligations.RegisterIncrementAndDecrement
  exact ⟨fun s => ⟨_, toNat_increment s.x, modifyReg_eq (· + 1) .x s⟩,
    fun s => ⟨_, toNat_increment s.y, modifyReg_eq (· + 1) .y s⟩,
    fun s => ⟨_, toNat_decrement s.x, modifyReg_eq (· - 1) .x s⟩,
    fun s => ⟨_, toNat_decrement s.y, modifyReg_eq (· - 1) .y s⟩,
    encodedAs_opcodeCells .inx, encodedAs_opcodeCells .iny, encodedAs_opcodeCells .dex, encodedAs_opcodeCells .dey⟩

/-! ### BIT -/

/-- The flags come from `A` and the operand; `A` and the other flags are those before the read (R136). -/
theorem bitTest_eq (o : MemOperand) (s : State) :
    let m := (s.loadOperand (.memory o)).1
    bitTest o s = .next { (s.loadOperand (.memory o)).2 with flags := { s.flags with
      z := decide (s.a &&& m = 0x00), n := m.getLsbD 7, v := m.getLsbD 6 } } := by
  rw [bitTest, State.loadOperand_a, State.loadOperand_flags]
  rfl

theorem exec_of_bit {i : Instr} (h : i.mnemonic = .bit) (s : State) :
    ∃ o, i.operand = .memory o ∧ exec i s = bitTest o s :=
  match i, h with
  | .bitZp _, _ | .bitAbs _, _ => ⟨_, rfl, rfl⟩

/-- Settles O38: both forms are the shared bit test, and the cells are those of the table by mnemonic. -/
theorem bitTestsOperand : Obligations.BitTestsOperand := by
  unfold Obligations.BitTestsOperand
  refine ⟨fun i s h => ?_, encodedAs_opcodeCells .bit⟩
  obtain ⟨o, ho, hbit⟩ := exec_of_bit h s
  exact ⟨.memory o, _, _, by rw [ho]; rfl, rfl, hbit.trans (bitTest_eq o s)⟩

end Sys2Proof.Proofs.IncDecBit
end

section
/-! SUPPORT. The branches, JMP, JSR and RTS (45_control_flow.md R140 to R151). Each target is said once as a number: the
signed sum of a branch, the same-page successor of an indirect pointer, the return address of the stack. The whole next
states of JSR and RTS are said once as writes and reads of the port, and the round trip follows from them alone. -/

open Sys2Proof Sys2Proof.Machine Sys2Proof.Spec
open Sys2Proof.Proofs.StackAndStatus Sys2Proof.Proofs.AddressingModes Sys2Proof.Proofs.OpcodeCells

namespace Sys2Proof.Proofs.ControlFlow

/-! ### Branches -/

/-- A sign extension is the signed value in the wider type, so the target is the signed sum (R82). -/
theorem toNat_relTarget (pc : Address) (d : Byte) :
    ((relTarget pc d).toNat : Int) = ((pc.toNat : Int) + d.toInt) % 65536 := by
  have hsum : relTarget pc d = BitVec.ofInt 16 ((pc.toNat : Int) + d.toInt) := by
    rw [BitVec.ofInt_add, BitVec.ofInt_natCast, BitVec.ofNat_toNat, BitVec.setWidth_eq]
    rfl
  rw [hsum, BitVec.toNat_ofInt]
  exact Int.toNat_of_nonneg (Int.emod_nonneg _ (by decide))

theorem branch_eq (c : Bool) (d : Byte) (s : State) :
    branch c d s = .next { s with pc := if c = true then relTarget s.pc d else s.pc } := by
  cases c <;> rfl

/-- The branches on a clear flag test its negation (R140). -/
theorem branch_not_eq (f : Bool) (d : Byte) (s : State) :
    branch (!f) d s = .next { s with pc := if f = false then relTarget s.pc d else s.pc } := by
  cases f <;> rfl

/-- Settles O39: each branch is the shared meaning at its flag, and the cells are those of the table by mnemonic. -/
theorem branchesMovePcOnCondition : Obligations.BranchesMovePcOnCondition := by
  unfold Obligations.BranchesMovePcOnCondition
  exact ⟨fun s d => ⟨relTarget s.pc d, toNat_relTarget s.pc d,
      branch_not_eq s.flags.c d s, branch_eq s.flags.c d s, branch_eq s.flags.z d s, branch_not_eq s.flags.z d s,
      branch_eq s.flags.n d s, branch_not_eq s.flags.n d s, branch_not_eq s.flags.v d s, branch_eq s.flags.v d s⟩,
    encodedAs_opcodeCells .bcc, encodedAs_opcodeCells .bcs, encodedAs_opcodeCells .beq, encodedAs_opcodeCells .bne,
    encodedAs_opcodeCells .bmi, encodedAs_opcodeCells .bpl, encodedAs_opcodeCells .bvc, encodedAs_opcodeCells .bvs⟩

/-! ### JMP -/

/-- A mask on an address is its two bytes as masks on the two bytes of the address (R7). -/
theorem and_eq_word (a m : Address) : a &&& m = word (highByte a &&& highByte m) (lowByte a &&& lowByte m) := by
  rw [word, ← BitVec.and_append]
  exact congrArg₂ (· &&& ·) (word_highByte_lowByte a).symm (word_highByte_lowByte m).symm

/-- The masks of R79 join the page of the pointer with the low byte of its successor. -/
theorem samePageNext_eq_word (p : Address) : samePageNext p = word (highByte p) (lowByte (p + 1)) := by
  have hpage : p &&& 0xFF00 = word (highByte p) 0#8 :=
    (and_eq_word p 0xFF00).trans (congrArg₂ word BitVec.and_allOnes BitVec.and_zero)
  have hlow : (p + 1) &&& 0x00FF = word 0#8 (lowByte (p + 1)) :=
    (and_eq_word (p + 1) 0x00FF).trans (congrArg₂ word BitVec.and_zero BitVec.and_allOnes)
  rw [samePageNext, hpage, hlow]
  exact BitVec.or_append.trans (congrArg₂ word BitVec.or_zero BitVec.zero_or)

/-- The quirk of R79: behind the last byte of a page comes its first. -/
theorem toNat_samePageNext (p : Address) :
    (samePageNext p).toNat = if p.toNat % 256 = 255 then p.toNat - 255 else p.toNat + 1 := by
  have hp := p.isLt
  rw [samePageNext_eq_word, toNat_word, toNat_highByte, toNat_lowByte, BitVec.toNat_add,
    show (1 : Address).toNat = 1 from rfl]
  split_ifs <;> omega

/-- Settles O40: the indirect form reads the word at the pointer and at its successor in the page. -/
theorem jumpsSetPc : Obligations.JumpsSetPc := by
  unfold Obligations.JumpsSetPc
  refine ⟨fun _ _ => rfl, fun s p => ⟨samePageNext p, _, toNat_samePageNext p, toNat_word _ _, ?_⟩,
    encodedAs_opcodeCells .jmp⟩
  rw [exec_jmpInd, execJmpInd, State.resolveIndirect, read16_eq]
  rfl

/-! ### JSR and RTS -/

/-- The return address less one, modulo 65536, is what JSR pushes (R150). -/
theorem toNat_sub_one (pc : Address) : (pc - 1).toNat = (pc.toNat + 65535) % 65536 := by
  rw [BitVec.toNat_sub, Nat.add_comm]
  rfl

/-- The two pushes of JSR, as two writes and a stack pointer less by two (R150). -/
theorem exec_jsr_eq (a : Address) (s : State) :
    exec (.jsr a) s = .next { written (written s (stackAt s.sp) (highByte (s.pc - 1))) (stackAt (s.sp - 1))
      (lowByte (s.pc - 1)) with sp := s.sp - 2, pc := a } := by
  have hsp : s.sp - 1 - 1 = s.sp - 2 := sub_sub s.sp 1 1
  rw [exec_jsr, execJsr, push_eq, push_eq, ← hsp]
  rfl

/-- The two pulls of RTS, as two reads and a stack pointer greater by two (R151). -/
theorem exec_rts_eq (s : State) :
    exec .rts s = .next { readAt (readAt s (stackAt (s.sp + 1))) (stackAt (s.sp + 2)) with
      sp := s.sp + 2
      pc := word (s.answer 1 (stackAt (s.sp + 2))) (s.answer 0 (stackAt (s.sp + 1))) + 1 } := by
  have hsp : s.sp + 1 + 1 = s.sp + 2 := add_assoc s.sp 1 1
  rw [exec_rts, execRts, pull_eq, pull_eq, ← hsp]
  rfl

/-- Settles O41, from the whole next state; the two bytes pushed are the word that is the return address less one. -/
theorem jsrPushesReturnAddress : Obligations.JsrPushesReturnAddress := by
  unfold Obligations.JsrPushesReturnAddress
  refine ⟨fun s a => ⟨highByte (s.pc - 1), lowByte (s.pc - 1), ?_, exec_jsr_eq a s⟩, encodedAs_opcodeCells .jsr⟩
  rw [← toNat_word, word_highByte_lowByte, toNat_sub_one]

/-- Settles O42, from the whole next state. -/
theorem rtsReturnsPastPulledAddress : Obligations.RtsReturnsPastPulledAddress := by
  unfold Obligations.RtsReturnsPastPulledAddress
  refine ⟨fun s => ⟨_, ?_, exec_rts_eq s⟩, encodedAs_opcodeCells .rts⟩
  rw [BitVec.toNat_add, toNat_word]
  rfl

/-! ### The round trip -/

/-- Two pushes in a row go to different addresses, the wrap of `SP` included. -/
theorem stackAt_ne_stackAt_sub_one (sp : Byte) : stackAt sp ≠ stackAt (sp - 1) := by
  intro h
  have hnat := congrArg BitVec.toNat h
  rw [toNat_stackAt, toNat_stackAt] at hnat
  bv_omega

/-- JSR leaves the return address less one on the stack, its high byte at the old `SP` and its low byte below. -/
theorem byteAt_of_exec_jsr {s t : State} {a : Address} (hm : s.mem.wf = true)
    (hext : ∀ sp : Byte, s.isExternal (stackAt sp) = false) (h : exec (.jsr a) s = .next t) :
    t.byteAt (stackAt s.sp) = highByte (s.pc - 1) ∧ t.byteAt (stackAt (s.sp - 1)) = lowByte (s.pc - 1) := by
  cases (exec_jsr_eq a s).symm.trans h
  constructor
  · exact (State.byteAt_busWrite_ne (s.busWrite _ _) _ (stackAt_ne_stackAt_sub_one s.sp)).trans
      (State.byteAt_busWrite_self hm _ (hext s.sp))
  · exact State.byteAt_busWrite_self (State.busWrite_wf hm _ _) _ (hext (s.sp - 1))

theorem sp_flags_of_exec_jsr {s t : State} {a : Address} (h : exec (.jsr a) s = .next t) :
    t.sp = s.sp - 2 ∧ t.flags = s.flags := by
  cases (exec_jsr_eq a s).symm.trans h
  exact ⟨rfl, rfl⟩

/-- Settles O43: RTS reads the two bytes that JSR has written, where JSR has written them, and adds the one again. -/
theorem rtsReturnsToJsrSuccessor : Obligations.RtsReturnsToJsrSuccessor := by
  unfold Obligations.RtsReturnsToJsrSuccessor
  intro s t u a p hm hext hjsr hrts
  obtain ⟨hhi, hlo⟩ := byteAt_of_exec_jsr hm hext hjsr
  obtain ⟨hsp, hflags⟩ := sp_flags_of_exec_jsr hjsr
  have hstored : ∀ sp : Byte, t.isExternal (stackAt sp) = false := fun sp =>
    (State.isExternal_congr (kept_of_exec hjsr).external _).trans (hext sp)
  have hsp1 : t.sp + 1 = s.sp - 1 := by rw [hsp]; bv_omega
  have hsp2 : t.sp + 2 = s.sp := by rw [hsp, sub_add_cancel]
  cases (exec_rts_eq (t.setPc p)).symm.trans hrts
  refine ⟨?_, hsp2, hflags⟩
  simp only [State.setPc_sp, State.answer_setPc, hsp1, hsp2, State.answer_of_stored (hstored _), hhi, hlo,
    word_highByte_lowByte, sub_add_cancel]

end Sys2Proof.Proofs.ControlFlow
end

section
/-! SUPPORT. PHA, PLA, PHP, PLP and NOP (46_stack_status_nop.md R160 to R164). The whole next state of each is said
once, the byte that PHP pushes is the status byte with `B` set, and a pull gives back the byte pushed before it. -/

open Sys2Proof Sys2Proof.Machine Sys2Proof.Spec
open Sys2Proof.Proofs.StackAndStatus Sys2Proof.Proofs.LoadStoreTransfer Sys2Proof.Proofs.OpcodeCells

namespace Sys2Proof.Proofs.StackStatusNop

/-! ### PHP and PLP -/

/-- The byte that PHP pushes is the status byte with `B` set: bit 5 is 1 already (R162). -/
theorem pack_or_pushed (f : Flags) : f.pack ||| 0x30 = ({ f with b := true } : Flags).pack := by
  obtain ⟨c, z, i, d, b, v, n⟩ := f
  revert c z i d b v n
  decide

/-- That byte as a number, `N:V:1:1:D:I:Z:C`. -/
theorem toNat_pack_or_pushed (f : Flags) : (f.pack ||| 0x30).toNat = 128 * f.n.toNat + 64 * f.v.toNat + 32 + 16 +
    8 * f.d.toNat + 4 * f.i.toNat + 2 * f.z.toNat + f.c.toNat := by
  simp only [pack_or_pushed, toNat_pack, Bool.toNat_true]
  omega

theorem exec_php_eq (s : State) :
    exec .php s = .next { written s (stackAt s.sp) (s.flags.pack ||| 0x30) with sp := s.sp - 1 } := by
  rw [exec_php, push_eq]

theorem exec_plp_eq (s : State) : exec .plp s = .next { readAt s (stackAt (s.sp + 1)) with
    sp := s.sp + 1, flags := Flags.unpack (s.answer 0 (stackAt (s.sp + 1))) } := by
  rw [exec_plp, execPlp, pull_eq]
  rfl

/-- Settles O46, from the whole next states; the seven bits that PLP takes are those of `unpack`. -/
theorem pushAndPullStatus : Obligations.PushAndPullStatus := by
  unfold Obligations.PushAndPullStatus
  exact ⟨fun s => ⟨_, toNat_pack_or_pushed s.flags, exec_php_eq s⟩, fun s => ⟨_, rfl, exec_plp_eq s⟩,
    encodedAs_opcodeCells .php, encodedAs_opcodeCells .plp⟩

/-! ### The round trip -/

/-- Where there is storage, a pull gives the byte that the push before it has put on the stack (R15, R16). -/
theorem pull_push_value {s : State} (v : Byte) (hm : s.mem.wf = true) (hx : s.isExternal (stackAt s.sp) = false) :
    (s.push v).pull.1 = v := by
  have hsp : (s.push v).sp + 1 = s.sp := sub_add_cancel s.sp 1
  have hstored : (s.push v).isExternal (stackAt s.sp) = false := (State.isExternal_congr rfl _).trans hx
  rw [pull_eq, hsp, State.answer_of_stored hstored, push_eq]
  exact State.byteAt_busWrite_self hm v hx

/-- Settles O47: PLP unpacks the byte that PHP has packed, which is that of the flags with `B` set (90 C1). -/
theorem plpAfterPhpSetsBreak : Obligations.PlpAfterPhpSetsBreak := by
  unfold Obligations.PlpAfterPhpSetsBreak
  intro s t u hm hx hphp hplp
  cases hphp
  cases hplp
  constructor
  · calc Flags.unpack (s.push (s.flags.pack ||| 0x30)).pull.1
      _ = Flags.unpack (s.flags.pack ||| 0x30) := by rw [pull_push_value _ hm hx]
      _ = { s.flags with b := true } := by rw [pack_or_pushed, unpack_pack]
  · exact sub_add_cancel s.sp 1

/-! ### PHA, PLA and NOP -/

theorem exec_pha_eq (s : State) : exec .pha s = .next { written s (stackAt s.sp) s.a with sp := s.sp - 1 } := by
  rw [exec_pha, push_eq]

theorem exec_pla_eq (s : State) : exec .pla s = .next { readAt s (stackAt (s.sp + 1)) with
    sp := s.sp + 1
    a := s.answer 0 (stackAt (s.sp + 1))
    flags := withZN s.flags (s.answer 0 (stackAt (s.sp + 1))) } := by
  rw [exec_pla, execPla, setReg_setZN, pull_eq]
  rfl

/-- Settles O45, from the whole next states. -/
theorem pushAndPullAccumulator : Obligations.PushAndPullAccumulator := by
  unfold Obligations.PushAndPullAccumulator
  exact ⟨exec_pha_eq, fun s => ⟨_, rfl, exec_pla_eq s⟩, encodedAs_opcodeCells .pha, encodedAs_opcodeCells .pla⟩

/-- Settles O48: NOP's meaning is the identity, and it has its one cell. -/
theorem nopHasNoEffect : Obligations.NopHasNoEffect := by
  unfold Obligations.NopHasNoEffect
  exact ⟨exec_nop, encodedAs_opcodeCells .nop⟩

end Sys2Proof.Proofs.StackStatusNop
end

section
/-! SUPPORT. CLC, SEC, CLI, SEI, CLV, CLD and SED (47_flag_ops.md R170 to R176). -/

open Sys2Proof Sys2Proof.Machine Sys2Proof.Spec
open Sys2Proof.Proofs.OpcodeCells

namespace Sys2Proof.Proofs.FlagOps

/-- Settles O49: the meaning of each is the write of its one flag, and it has its one cell. -/
theorem flagInstructionsWriteOneFlag : Obligations.FlagInstructionsWriteOneFlag := by
  unfold Obligations.FlagInstructionsWriteOneFlag
  exact ⟨exec_clc, exec_sec, exec_cli, exec_sei, exec_clv, exec_cld, exec_sed,
    encodedAs_opcodeCells .clc, encodedAs_opcodeCells .sec, encodedAs_opcodeCells .cli, encodedAs_opcodeCells .sei,
    encodedAs_opcodeCells .clv, encodedAs_opcodeCells .cld, encodedAs_opcodeCells .sed⟩

end Sys2Proof.Proofs.FlagOps
end

section
/-! SUPPORT. The exception and the invariant (60_exceptions.md R180 to R188). What a step can do is said once: the bytes
at `PC` decode and the instruction is executed after its fetch, or the opcode is absent and the exception is taken. -/

open Sys2Proof Sys2Proof.Machine Sys2Proof.Spec
open Sys2Proof.Proofs.StepByFetch Sys2Proof.Proofs.Encoding Sys2Proof.Proofs.AccessTable

namespace Sys2Proof.Proofs.Exceptions

/-! ### What a step can do -/

/-- Three bytes are enough for any instruction, so an opcode that is not absent decodes (R50, R54). -/
theorem exists_decode_of_notMem_absentOpcodes {s : State} (h : s.answer 0 s.pc ∉ absentOpcodes) :
    ∃ i rest, decode (codeBytes s) = .ok i rest := by
  rw [← tableEntry_eq_none_iff] at h
  obtain ⟨e, he⟩ := Option.ne_none_iff_exists'.1 h
  rw [codeBytes, decode, he]
  cases e with
  | plain i => exact ⟨_, _, rfl⟩
  | byteOperand mk => exact ⟨_, _, rfl⟩
  | wordOperand mk => exact ⟨_, _, rfl⟩

/-- A step that answers a next state has executed an instruction or taken the exception (R56, R58, R180). -/
theorem step_cases {s t : State} (h : step s = .next t) :
    (s.answer 0 s.pc ∉ absentOpcodes ∧
      ∃ i rest, decode (codeBytes s) = .ok i rest ∧ exec i (afterFetch s i.length) = .next t) ∨
    (s.answer 0 s.pc ∈ absentOpcodes ∧
      t = (s.beginStep.busRead s.pc).2.takeInvalidOpcode (s.answer 0 s.pc) s.pc) := by
  have hh := unhalted_of_step h
  by_cases ha : s.answer 0 s.pc ∈ absentOpcodes
  · rw [step_of_mem_absentOpcodes hh ha] at h
    cases h
    exact .inr ⟨ha, rfl⟩
  · obtain ⟨i, rest, hd⟩ := exists_decode_of_notMem_absentOpcodes ha
    exact .inl ⟨ha, i, rest, hd, step_of_decode hh hd ▸ h⟩

theorem step_of_halted {s : State} (h : s.halted = true) : step s = .fault (.halted s.faultOpcode s.faultPc) :=
  if_pos h

theorem exists_step_of_unhalted {s : State} (hh : s.halted = false) : ∃ t, step s = .next t := by
  by_cases ha : s.answer 0 s.pc ∈ absentOpcodes
  · exact ⟨_, step_of_mem_absentOpcodes hh ha⟩
  · obtain ⟨i, rest, hd⟩ := exists_decode_of_notMem_absentOpcodes ha
    obtain ⟨t, ht, -⟩ := exec_kept i (afterFetch s i.length)
    exact ⟨t, (step_of_decode hh hd).trans ht⟩

theorem kept_afterFetch (s : State) (n : Nat) : Kept s (afterFetch s n) := ⟨rfl, rfl, rfl, rfl, id⟩

/-- The fetch and the instruction together keep what an instruction keeps. -/
theorem kept_of_exec_afterFetch {i : Instr} {s t : State} {n : Nat} (h : exec i (afterFetch s n) = .next t) :
    Kept s t :=
  (kept_afterFetch s n).trans (kept_of_exec h)

/-! ### The one exception -/

/-- Settles O8: an instruction keeps the latch, which is clear before any step that answers; the exception sets it. -/
theorem invalidOpcodeIsTheOnlyException : Obligations.InvalidOpcodeIsTheOnlyException := by
  unfold Obligations.InvalidOpcodeIsTheOnlyException
  intro s t h
  rcases step_cases h with ⟨ha, i, rest, -, hexec⟩ | ⟨ha, rfl⟩
  · have hk := kept_of_exec_afterFetch hexec
    have hnot : t.halted = false := hk.halted.trans (unhalted_of_step h)
    exact ⟨by simp [hnot, ha], fun _ => ⟨hk.faultOpcode, hk.faultPc⟩⟩
  · exact ⟨by simp [ha], absurd ha⟩

/-- Settles O9: the step by the latch, and the two ports by the fields they leave. -/
theorem stepFailsExactlyWhenHalted : Obligations.StepFailsExactlyWhenHalted := by
  unfold Obligations.StepFailsExactlyWhenHalted
  exact ⟨fun _ => step_of_halted, fun _ => exists_step_of_unhalted,
    fun s b => ⟨s.setFlags_halted (Flags.unpack b), s.setFlags_flags (Flags.unpack b)⟩, State.hostReset_halted⟩

/-- Settles O10: what every instruction keeps. -/
theorem everyInstructionCompletes : Obligations.EveryInstructionCompletes := by
  unfold Obligations.EveryInstructionCompletes
  intro i s
  obtain ⟨t, ht, hk⟩ := exec_kept i s
  exact ⟨t, ht, hk.halted, hk.faultOpcode, hk.faultPc, hk.external⟩

/-! ### The invariant -/

/-- With the bytes of the instruction, no row of the table of R44 has more than five accesses. The rows of five are the
absolute read-modify-writes and JSR (three bytes, two accesses), JMP indirect (three bytes, two pointer reads), and the
modes IZX and IZY (two bytes, two pointer reads, one access). -/
theorem length_accesses_le_five (i : Instr) (s : State) :
    i.length + (pointerReads s i.operand ++ dataAccesses s i).length ≤ 5 := by
  cases i <;> exact Nat.le_of_ble_eq_true rfl

/-- The accesses of an instruction are counted by its row of the table of R44. -/
theorem length_accesses_of_exec {i : Instr} {s t : State} (h : exec i s = .next t) :
    t.accesses.length = s.accesses.length + (pointerReads s i.operand ++ dataAccesses s i).length := by
  obtain ⟨l, hl, hrow, -⟩ := (makes_of_exec h).log
  rw [hl, List.length_append, ← hrow, List.length_map]

theorem length_accesses_afterFetch_le (s : State) (n : Nat) : (afterFetch s n).accesses.length ≤ n :=
  List.length_take_le n _

/-- An instruction executed after its fetch has made at most five accesses. -/
theorem length_accesses_of_exec_afterFetch_le {i : Instr} {s t : State}
    (h : exec i (afterFetch s i.length) = .next t) : t.accesses.length ≤ 5 := by
  have hfetch := length_accesses_afterFetch_le s i.length
  have hrow := length_accesses_le_five i (afterFetch s i.length)
  have hexec := length_accesses_of_exec h
  omega

/-- While the core is not halted, the latch agrees when the record is zero (R200). -/
theorem latchAgrees_iff_of_unhalted {s : State} (h : s.halted = false) :
    s.LatchAgrees ↔ s.faultOpcode = 0x00 ∧ s.faultPc = 0x0000 := by
  simp [State.LatchAgrees, h]

/-- The exception makes the latch agree: it records the absent opcode and the address that `PC` still holds (R181). -/
theorem latchAgrees_takeInvalidOpcode {s : State} {op : Byte} (h : op ∈ absentOpcodes) :
    (s.takeInvalidOpcode op s.pc).LatchAgrees := by
  simp [State.LatchAgrees, (tableEntry_eq_none_iff op).2 h]

/-- Settles O12, by what the step did: an instruction keeps the canonical form and the clear latch, and the table bounds
its accesses; the exception leaves memory after one access, and the latch agrees. -/
theorem stepKeepsInvariant : Obligations.StepKeepsInvariant := by
  unfold Obligations.StepKeepsInvariant
  rintro s t ⟨hwf, hlatch, -⟩ h
  have hh := unhalted_of_step h
  rcases step_cases h with ⟨-, i, rest, -, hexec⟩ | ⟨ha, rfl⟩
  · have hk := kept_of_exec_afterFetch hexec
    obtain ⟨hop, hpc⟩ := (latchAgrees_iff_of_unhalted hh).1 hlatch
    exact ⟨hk.wf hwf,
      (latchAgrees_iff_of_unhalted (hk.halted.trans hh)).2 ⟨hk.faultOpcode.trans hop, hk.faultPc.trans hpc⟩,
      length_accesses_of_exec_afterFetch_le hexec⟩
  · exact ⟨hwf, latchAgrees_takeInvalidOpcode (s := (s.beginStep.busRead s.pc).2) ha, by simp⟩

end Sys2Proof.Proofs.Exceptions
end

section
/-! SUPPORT. Reset, the states that runs and the host reach, and runs of several steps (60_exceptions.md R183;
70_reset_and_hazards.md R200 to R212). -/

open Sys2Proof Sys2Proof.Machine Sys2Proof.Spec
open Sys2Proof.Proofs.StepByFetch Sys2Proof.Proofs.Exceptions

namespace Sys2Proof.Proofs.ResetAndRuns

/-! ### Reset -/

/-- Settles O51: the assignments of `Reset`, and the packed clear flags. -/
theorem resetSetsEveryRegister : Obligations.ResetSetsEveryRegister := by
  unfold Obligations.ResetSetsEveryRegister
  exact fun s p => ⟨rfl, rfl⟩

/-- `Reset` clears the latch, its record and the accesses, and leaves memory (R200, R203). -/
theorem inv_hostReset {s : State} (h : s.mem.wf = true) (p : Address) : (s.hostReset p).Inv :=
  ⟨h, (latchAgrees_iff_of_unhalted (s.hostReset_halted p)).2 ⟨rfl, rfl⟩, Nat.zero_le 5⟩

/-- The state after reset is one that `Reset` gives (R25, R200). -/
theorem reset_eq_hostReset : State.reset = State.reset.hostReset Config.resetPc := rfl

/-- Settles O13, for the state after reset as one that `Reset` gives. -/
theorem resetMeetsInvariant : Obligations.ResetMeetsInvariant := by
  unfold Obligations.ResetMeetsInvariant
  exact ⟨reset_eq_hostReset ▸ inv_hostReset reset_mem_wf Config.resetPc, fun s p h => inv_hostReset h p⟩

/-! ### The reachable states -/

/-- The invariant does not speak of the flags. -/
theorem inv_setProcessorStatus {s : State} (h : s.Inv) (b : Byte) : (s.setProcessorStatus b).Inv := h

/-- Of memory the invariant asks the canonical form alone. -/
theorem inv_embedMemory {s : State} {m : Memory} (h : s.Inv) (hm : m.wf = true) (ext : List Window) :
    (s.embedMemory m ext).Inv :=
  ⟨hm, h.2⟩

/-- Settles O14, by induction on how the state is reached: steps and each action of the host keep the invariant. -/
theorem reachableStatesMeetInvariant : Obligations.ReachableStatesMeetInvariant := by
  unfold Obligations.ReachableStatesMeetInvariant
  intro s hs
  induction hs with
  | reset => exact resetMeetsInvariant.1
  | step _ h ih => exact stepKeepsInvariant _ _ ih h
  | hostReset p _ ih => exact inv_hostReset ih.1 p
  | setStatus b _ ih => exact inv_setProcessorStatus ih b
  | memory m ext hm _ ih => exact inv_embedMemory ih hm ext

/-! ### Runs -/

theorem steps_zero {s t : State} : Steps 0 s t ↔ s = t := Iff.of_eq (Host.Outcome.next.injEq s t)

/-- A run of one more step: the first step answers, and the rest is a run. -/
theorem steps_succ {n : Nat} {s t : State} : Steps (n + 1) s t ↔ ∃ u, step s = .next u ∧ Steps n u t := by
  have hcore : Host.Core.step Sys2Proof.core s = step s := rfl
  cases h : step s <;> simp [Steps, Host.Core.run, hcore, h]

/-- A run splits after any number of its steps. -/
theorem steps_add {k m : Nat} {s t : State} : Steps (k + m) s t ↔ ∃ u, Steps k s u ∧ Steps m u t := by
  induction k generalizing s with
  | zero => simp [steps_zero]
  | succ k ih =>
    rw [Nat.add_right_comm]
    simp only [steps_succ, ih]
    constructor
    · rintro ⟨v, hv, u, hu, ht⟩
      exact ⟨u, ⟨v, hv, hu⟩, ht⟩
    · rintro ⟨u, ⟨v, hv, hu⟩, ht⟩
      exact ⟨v, hv, u, hu, ht⟩

/-- A run of at least one step starts in a state that is not halted: a halted core answers no next state (R183). -/
theorem safe_of_steps_succ {n : Nat} {s t : State} (h : Steps (n + 1) s t) : s.Safe := by
  obtain ⟨u, hu, -⟩ := steps_succ.1 h
  exact unhalted_of_step hu

/-- Settles O15: the run splits after `k` steps, and what is left of it has a first step. -/
theorem runsPassThroughUnhaltedStates : Obligations.RunsPassThroughUnhaltedStates := by
  unfold Obligations.RunsPassThroughUnhaltedStates
  intro n k s t h hk
  obtain ⟨m, rfl⟩ := Nat.exists_eq_add_of_lt hk
  obtain ⟨u, hu, ht⟩ := steps_add.1 (show Steps (k + (m + 1)) s t from h)
  exact ⟨u, hu, safe_of_steps_succ ht, by rwa [Nat.add_assoc, Nat.add_sub_cancel_left]⟩

end Sys2Proof.Proofs.ResetAndRuns
end
